-- ==== Sys2Proof/Word.lean ====
section
/-! DEFINITION. The words the part handles: bytes of a frame and values of the timebase. -/

namespace Sys2Proof

/-- One byte of a frame (spec/08, section 8.9). -/
abbrev Byte := BitVec 8

/-- A value of the 32-bit millisecond timebase (R40); it wraps. -/
abbrev Time := BitVec 32

end Sys2Proof
end

