-- ==== Sys2Proof/Config.lean ====
section
/-! DEFINITION. What is fixed for every part: the sizes the manual states and one bound of the model's own.
The manual leaves no value of an effect open, so there is no free value here. -/

namespace Sys2Proof.Config

/-- R8: the ticket pool holds the handles 1 to 60. -/
def ticketPool : Nat := 60

/-- R8: the last four free handles are kept for intruders. -/
def reserve : Nat := 4

/-- R9: the axle cell pool holds 96 cells. -/
def cellPool : Nat := 96

/-- R16: the close queue holds up to 32 close summaries. -/
def closeQueueSize : Nat := 32

/-- R143: a transmit queue holds up to 16 frames. -/
def transmitQueueSize : Nat := 16

/-- R137: at most 70 received bytes are stored. -/
def receivedBytes : Nat := 70

/-- R139: a payload is at most 64 bytes. -/
def payloadSize : Nat := 64

/-- Conventions (Counts): the counts are 16-bit and stop at 65,535. -/
def countLimit : Nat := 65535

/-- R129: free handles at which POOL_EXHAUSTED may clear. -/
def handlesToReopen : Nat := 8

/-- R129: free cells at which POOL_EXHAUSTED may clear. -/
def cellsToReopen : Nat := 12

/-- How deep reports between blocks may follow from one another inside one step. The manual has no such bound.
DESIGN CHOICE, log 5: unsafe only in a state from which a longer chain of reports would follow. -/
def cascadeDepth : Nat := 1024

end Sys2Proof.Config
end

