-- ==== Sys2Proof/Syntax.lean ====
section
/-! DEFINITION. The commands of the part: one constructor of Instr for each row of spec/opcode_table.json.
The table gives the rows no operands; each operand below is what the row's rule reads (DESIGN CHOICE, log 20). -/

namespace Sys2Proof

/-- The two approaches (spec/00_scope.md, "The setting"). -/
inductive Approach where
  | A
  | B
deriving DecidableEq, Repr

/-- Links 0 to 3. -/
abbrev LinkNo := Fin 4

/-- Chain positions 1 to 4, counted from 0 here. -/
abbrev PosNo := Fin 4

/-- Lanes 1 to 3, counted from 0 here. -/
abbrev LaneNo := Fin 3

/-- Spans 1 to 4, counted from 0 here. -/
abbrev SpanNo := Fin 4

/-- Detector lines D0 to D19. -/
abbrev LineNo := Fin 20

/-- What a link hands on of a valid frame beside its link, kind and arrival (R141): the hop, the tag and the
payload (spec/08, section 8.9). The arrival is the timebase of the step. -/
structure Frame where
  hop : Byte
  tag : Byte
  payload : List Byte
deriving DecidableEq, Repr

/-- What a link has received when its line has been idle for two character times (R139, R140): the bytes, and
whether any character failed its framing or noise check. -/
structure Reception where
  bytes : List Byte
  framing : Bool
  noise : Bool
deriving DecidableEq, Repr

/-- The checks a link makes of a received frame, in the order it makes them (R140). -/
inductive RxCheck where
  | framing
  | noise
  | length
  | check
  | strayHop
deriving DecidableEq, Repr

/-- The aspect records of one approach: three lanes and the bay signal (R105, R106). -/
inductive RecordId where
  | lane (l : LaneNo)
  | bay
deriving DecidableEq, Repr

/-- The commands, in the order of spec/opcode_table.json. -/
inductive Instr where
  | weighRecord (k : LinkNo) (f : Frame)
  | keepalive (k : LinkNo) (f : Frame)
  | chainSet (k : LinkNo) (f : Frame)
  | answer (k : LinkNo) (f : Frame)
  | unknownKind (k : LinkNo) (code : Byte) (f : Frame)
  | queryPart (k : LinkNo) (f : Frame)
  | querySpan (k : LinkNo) (f : Frame)
  | queryTicket (k : LinkNo) (f : Frame)
  | queryStation (k : LinkNo) (f : Frame)
  | queryLink (k : LinkNo) (f : Frame)
  | queryLine (k : LinkNo) (f : Frame)
  | readProfileItem (k : LinkNo) (f : Frame)
  | readEvents (k : LinkNo) (f : Frame)
  | collectClose (k : LinkNo) (f : Frame)
  | setProfileItem (k : LinkNo) (f : Frame)
  | commitProfile (k : LinkNo) (f : Frame)
  | reconfigure (k : LinkNo) (f : Frame)
  | resume (k : LinkNo) (f : Frame)
  | bindStation (k : LinkNo) (f : Frame)
  | unbindStation (k : LinkNo) (f : Frame)
  | setApproach (k : LinkNo) (f : Frame)
  | setAlertMask (k : LinkNo) (f : Frame)
  | escort (k : LinkNo) (f : Frame)
  | cancelEscort (k : LinkNo) (f : Frame)
  | writeOff (k : LinkNo) (f : Frame)
  | acknowledgeOverload (k : LinkNo) (f : Frame)
  | resetPart (k : LinkNo) (f : Frame)
  | receiveCheckFailed (k : LinkNo) (r : Reception)
  | transmitStart (k : LinkNo)
  | frameSent (k : LinkNo)
  | leadingEdge (d : LineNo)
  | trailingEdge (d : LineNo)
  | lineConfirmDue (d : LineNo)
  | stuckDue (d : LineNo)
  | gantryDue
  | bayLimit
  | releaseDue
  | entryDue
  | watchEnd
  | spanDue
  | waitLimit
  | orderConfirmDue (a : Approach) (r : RecordId)
  | silenceDue (k : LinkNo) (p : PosNo)
  | lossUntil (a : Approach)
  | reportDue
  | clearanceDue
  | supplyReset
  | lineReset
  | resetEnd (csel1 csel0 : Bool)
deriving DecidableEq, Repr

end Sys2Proof
end

