-- ==== Sys2Proof/Decode.lean ====
section
/-! DEFINITION. Words and frames. No row of spec/opcode_table.json gives bits, so no word spells a command. What
the manual does lay out is the frame (spec/08, sections 8.3, 8.8 and 8.9): its bytes, its CRC, the checks a
link makes of it and the table of frame kinds, both ways. -/

namespace Sys2Proof

/-- No row of the table gives bits (log 22). -/
def decodeTableWord (_nbits _w : Nat) : Option Instr := none

/-- One bit of the CRC of R140: polynomial 0x1021, most significant bit first. -/
def crcBit (c : BitVec 16) : BitVec 16 := if c.msb then (c <<< 1) ^^^ 0x1021#16 else c <<< 1

/-- One byte of the CRC of R140. -/
def crcByte (c : BitVec 16) (b : Byte) : BitVec 16 :=
  crcBit (crcBit (crcBit (crcBit (crcBit (crcBit (crcBit (crcBit (c ^^^ (b ++ 0#8)))))))))

/-- The CRC of R140: starting value 0xFFFF, no final inversion. -/
def crc (bs : List Byte) : BitVec 16 := bs.foldl crcByte 0xFFFF#16

/-- Two bytes, most significant first (Conventions, Byte order). -/
def be16 (w : BitVec 16) : List Byte := [w.extractLsb' 8 8, w.extractLsb' 0 8]

/-- The layout of a frame (spec/08, section 8.9): hop, kind, tag, payload length, payload, CRC. -/
def frameBytes (code : Byte) (f : Frame) : List Byte :=
  let head := f.hop :: code :: f.tag :: BitVec.ofNat 8 f.payload.length :: f.payload
  head ++ be16 (crc head)

/-- The payload length field of a received frame. -/
def lengthField (bs : List Byte) : Nat := (bs.getD 3 0).toNat

/-- The first check of R140 that a received frame fails on a link whose chain has the given length. `long` says
that more than 70 bytes came, of which only 70 are stored (R139). -/
def firstFailedCheck (chain : Nat) (bs : List Byte) (framing noise long : Bool) : Option RxCheck :=
  if framing then some .framing
  else if noise then some .noise
  else if long ∨ bs.length < 6 ∨ Config.receivedBytes < bs.length ∨ Config.payloadSize < lengthField bs
      ∨ bs.length ≠ 6 + lengthField bs then some .length
  else if bs.drop (bs.length - 2) ≠ be16 (crc (bs.take (bs.length - 2))) then some .check
  else if (bs.getD 0 0).toNat = 0 ∨ chain < (bs.getD 0 0).toNat then some .strayHop
  else none

/-- The table of frame kinds (spec/08, section 8.8), read from left to right: the command that a valid frame of a
code is. A code not in the table, and one of a kind only the part sends, is UNKNOWN_KIND (R151). -/
def commandOfKind (k : LinkNo) (code : Byte) (f : Frame) : Instr :=
  match code.toNat with
  | 0x01 => .keepalive k f
  | 0x02 => .chainSet k f
  | 0x03 => .answer k f
  | 0x10 => .weighRecord k f
  | 0x40 => .queryPart k f
  | 0x41 => .querySpan k f
  | 0x42 => .queryTicket k f
  | 0x43 => .queryStation k f
  | 0x44 => .queryLink k f
  | 0x45 => .queryLine k f
  | 0x46 => .readProfileItem k f
  | 0x47 => .readEvents k f
  | 0x48 => .collectClose k f
  | 0x50 => .setProfileItem k f
  | 0x51 => .commitProfile k f
  | 0x52 => .reconfigure k f
  | 0x53 => .resume k f
  | 0x54 => .bindStation k f
  | 0x55 => .unbindStation k f
  | 0x56 => .setApproach k f
  | 0x57 => .setAlertMask k f
  | 0x58 => .escort k f
  | 0x59 => .cancelEscort k f
  | 0x5A => .writeOff k f
  | 0x5B => .acknowledgeOverload k f
  | 0x5C => .resetPart k f
  | _ => .unknownKind k code f

/-- The table of frame kinds, read from right to left: the link, the code and the rest of the frame that a
command is; none for a command that is no frame. -/
def frameOfCommand : Instr → Option (LinkNo × Byte × Frame)
  | .keepalive k f => some (k, 0x01, f)
  | .chainSet k f => some (k, 0x02, f)
  | .answer k f => some (k, 0x03, f)
  | .weighRecord k f => some (k, 0x10, f)
  | .queryPart k f => some (k, 0x40, f)
  | .querySpan k f => some (k, 0x41, f)
  | .queryTicket k f => some (k, 0x42, f)
  | .queryStation k f => some (k, 0x43, f)
  | .queryLink k f => some (k, 0x44, f)
  | .queryLine k f => some (k, 0x45, f)
  | .readProfileItem k f => some (k, 0x46, f)
  | .readEvents k f => some (k, 0x47, f)
  | .collectClose k f => some (k, 0x48, f)
  | .setProfileItem k f => some (k, 0x50, f)
  | .commitProfile k f => some (k, 0x51, f)
  | .reconfigure k f => some (k, 0x52, f)
  | .resume k f => some (k, 0x53, f)
  | .bindStation k f => some (k, 0x54, f)
  | .unbindStation k f => some (k, 0x55, f)
  | .setApproach k f => some (k, 0x56, f)
  | .setAlertMask k f => some (k, 0x57, f)
  | .escort k f => some (k, 0x58, f)
  | .cancelEscort k f => some (k, 0x59, f)
  | .writeOff k f => some (k, 0x5A, f)
  | .acknowledgeOverload k f => some (k, 0x5B, f)
  | .resetPart k f => some (k, 0x5C, f)
  | .unknownKind k code f => some (k, code, f)
  | .receiveCheckFailed _ _ => none
  | .transmitStart _ => none
  | .frameSent _ => none
  | .leadingEdge _ => none
  | .trailingEdge _ => none
  | .lineConfirmDue _ => none
  | .stuckDue _ => none
  | .gantryDue => none
  | .bayLimit => none
  | .releaseDue => none
  | .entryDue => none
  | .watchEnd => none
  | .spanDue => none
  | .waitLimit => none
  | .orderConfirmDue _ _ => none
  | .silenceDue _ _ => none
  | .lossUntil _ => none
  | .reportDue => none
  | .clearanceDue => none
  | .supplyReset => none
  | .lineReset => none
  | .resetEnd _ _ => none

/-- The bytes of a frame command as they come on its link. -/
def encodeCommand (i : Instr) : Option (LinkNo × List Byte) :=
  match frameOfCommand i with
  | some (k, code, f) => some (k, frameBytes code f)
  | none => none

/-- What a link whose chain has the given length makes of received bytes: the failed check, or the command that
the valid frame is (R140, R141, spec/08 section 8.8). -/
def decodeReception (k : LinkNo) (chain : Nat) (bs : List Byte) : Except RxCheck Instr :=
  match firstFailedCheck chain bs false false false with
  | some c => .error c
  | none =>
    .ok (commandOfKind k (bs.getD 1 0)
      { hop := bs.getD 0 0, tag := bs.getD 2 0, payload := (bs.drop 4).take (lengthField bs) })

end Sys2Proof
end

