-- ==== Sys2Proof/WellFormed.lean ====
section
/-! DEFINITION. When a command is one that the outside can send: a frame fits a frame (spec/08, section 8.9) and
passes the checks of R140 that do not look at the part's state, and the two rows that stand for "another kind" and
"failed its checks" are what they say. A command that is not well-formed still has a meaning: R140 and R151 say
what becomes of the frame. -/

namespace Sys2Proof

/-- R140, R148: the hop is a chain position and the payload fits. -/
def Frame.wf (f : Frame) : Bool :=
  decide (1 ≤ f.hop.toNat) && decide (f.hop.toNat ≤ 4) && decide (f.payload.length ≤ Config.payloadSize)

/-- R151: a code that is not in the table of frame kinds, or of a kind only the part sends. -/
def unknownCode (code : Byte) : Bool :=
  decide (commandOfKind 0 code ⟨0, 0, []⟩ = .unknownKind 0 code ⟨0, 0, []⟩)

/-- R140: on a chain of one station, which is the strictest, some check fails. -/
def Reception.fails (r : Reception) : Bool :=
  (firstFailedCheck 1 r.bytes r.framing r.noise (decide (Config.receivedBytes < r.bytes.length))).isSome

/-- A command the outside can send. -/
def Instr.wf (i : Instr) : Bool :=
  match i with
  | .receiveCheckFailed _ r => r.fails
  | .unknownKind _ code f => f.wf && unknownCode code
  | i =>
    match frameOfCommand i with
    | some (_, _, f) => f.wf
    | none => true

end Sys2Proof
end

