-- ==== Sys2Proof/Machine/State.lean ====
section
/-! DEFINITION. The state of the part, block by block (spec/00_scope.md, "Blocks of the part"), and its value
right after a reset. A set that the manual sends as a bit field (R162) is a bit vector whose bit 0 is the first
member of its list. -/

namespace Sys2Proof.Machine

/-- One thing for each approach. -/
structure Both (α : Type) where
  A : α
  B : α
deriving DecidableEq, Repr

/-! ## The crossing table (spec/01) -/

/-- The number by which a ticket is known, 1 to 60; 0 means none. -/
abbrev Handle := Nat

/-- R1. -/
inductive Origin where
  | weighed
  | escort
  | intruder
deriving DecidableEq, Repr

/-- R1, R18. -/
inductive Confidence where
  | good
  | degraded
  | bad
deriving DecidableEq, Repr

/-- R3. -/
inductive Decision where
  | pass
  | hold
  | divert
deriving DecidableEq, Repr

/-- R3, in the order of the codes of section 8.9. -/
inductive Reason where
  | axleOver
  | grossOver
  | spanOver
  | lowConfidence
  | approachRestricted
  | escortActive
  | bayFull
  | signGuard
  | bayOverdue
deriving DecidableEq, Repr

/-- R5, R7. -/
inductive TicketState where
  | nearing
  | bayed
  | leavingBay
  | runningIn
  | watched
  | crossing
  | escortWait
deriving DecidableEq, Repr

/-- R6, in the order of its table. -/
inductive TicketFlag where
  | gantryPresumed
  | crossLane
  | countermanded
  | demoted
  | promoted
  | exitPresumed
  | entryPresumed
  | overdue
  | violation
  | stalled
deriving DecidableEq, Repr

/-- R14, in the order of its table. -/
inductive CloseOutcome where
  | crossed
  | violated
  | intruded
  | complied
  | lapsed
  | writtenOff
  | cancelled
deriving DecidableEq, Repr

/-- A ticket record (R1 to R7). Its due field is its entry in the deadline list (R52). -/
structure Ticket where
  handle : Handle
  origin : Origin
  approach : Approach
  lane : Option LaneNo
  weighTime : Option Time
  speed : Option Nat
  axles : List Nat
  gross : Option Nat
  confidence : Option Confidence
  mass : Nat
  decision : Option Decision
  reason : Option Reason
  state : TicketState
  claims : BitVec 4
  forced : Bool
  span : Option SpanNo
  flags : BitVec 10
deriving DecidableEq, Repr

/-- A close summary (R15). -/
structure Summary where
  handle : Handle
  origin : Origin
  approach : Approach
  lane : Option LaneNo
  outcome : CloseOutcome
  decision : Option Decision
  reason : Option Reason
  flags : BitVec 10
  weighTime : Option Time
  closeTime : Time
  mass : Nat
deriving DecidableEq, Repr

/-- The crossing table: ticket records in rising order of handle (a handle is live exactly while a record carries
it, R8, log 19), the free axle cells (R9), the close queue, oldest first (R16), and the part counts (R17). -/
structure Table where
  tickets : List Ticket
  freeCells : Nat
  closeQueue : List Summary
  poolOverruns : Nat
  intrusions : Nat
  violations : Nat
  strays : Nat
  closeLost : Nat
deriving DecidableEq, Repr

/-! ## The span account (spec/02) -/

/-- A span record (R23). -/
structure SpanRec where
  massLimit : Nat
  massTarget : Option Nat
  countLimit : Nat
  countTarget : Option Nat
  mass : Nat
  count : Nat
  forcedMass : Nat
  forcedCount : Nat
  presumed : Nat
  onMass : Nat
  onCount : Nat
  overloaded : Bool
deriving DecidableEq, Repr

/-! ## Detector lines and the deadline list (spec/03) -/

/-- What a point of the road is (R46). -/
inductive PointKind where
  | gantry (l : LaneNo)
  | bayExit
  | entry
  | boundary (k : Fin 3)
  | exit
deriving DecidableEq, Repr

/-- A point that a line can stand for (R46). -/
structure Point where
  approach : Approach
  kind : PointKind
deriving DecidableEq, Repr

/-- R46. -/
inductive Polarity where
  | high
  | low
deriving DecidableEq, Repr

/-- R46, R48. -/
inductive LineState where
  | absent
  | confirming
  | present
  | stuck
deriving DecidableEq, Repr

/-- A detector line's record (R46) and the level on its pin (R47). A point of none is UNUSED. -/
structure LineRec where
  point : Option Point
  polarity : Polarity
  state : LineState
  lastCapture : Time
  noise : Nat
  confirmDue : Option Time
  stuckDue : Option Time
  level : Bool
deriving DecidableEq, Repr

/-- R5, R44. -/
inductive DueKind where
  | gantryDue
  | bayLimit
  | releaseDue
  | entryDue
  | watchEnd
  | spanDue
  | waitLimit
deriving DecidableEq, Repr

/-- An entry of the deadline list (R52). -/
structure Deadline where
  due : Time
  handle : Handle
  kind : DueKind
deriving DecidableEq, Repr

/-! ## The admission unit (spec/04) -/

/-- A hold queue: its bay segment, then its nearing segment (R60). -/
structure HoldQueue where
  bay : List Handle
  nearing : List Handle
deriving DecidableEq, Repr

/-- R56. -/
inductive ReleaseKind where
  | viaduct
  | divert
deriving DecidableEq, Repr

/-- A bay signal's release state (R56, R70). -/
inductive BaySignal where
  | idle
  | releasing (h : Handle) (kind : ReleaseKind)
deriving DecidableEq, Repr

/-- The admission unit's state (R56). -/
structure Admission where
  hold : Both HoldQueue
  turn : Approach
  skip : Both Nat
  escortSlot : Option Handle
  baySignal : Both BaySignal
deriving DecidableEq, Repr

/-! ## The tracking unit (spec/05) -/

/-- The places of one approach (R82). -/
structure Places where
  lanes : Vector (List Handle) 3
  leaving : Option Handle
  run : List Handle
  watch : List Handle
  spans : Vector (List Handle) 4
deriving DecidableEq, Repr

/-! ## The aspect unit (spec/06) -/

/-- R105, in the order of the codes of section 8.9. -/
inductive Aspect where
  | rest
  | proceed
  | toBay
  | divert
deriving DecidableEq, Repr

/-- R106, in the order of the codes of section 8.9. -/
inductive BayAspect where
  | hold
  | releaseViaduct
  | releaseDivert
deriving DecidableEq, Repr

/-- R105: whether an order is outstanding, under which tag and until when. -/
inductive OrderState where
  | idle
  | awaiting (tag : Byte) (due : Time)
  | failed
deriving DecidableEq, Repr

/-- A lane record or a bay signal record (R105, R106). A confirmed aspect of none is UNKNOWN. -/
structure AspectRec (α : Type) where
  wanted : α
  ordered : Option α
  confirmed : Option α
  order : OrderState
  pending : Option α
deriving DecidableEq, Repr

/-- The aspect records of one approach. -/
structure AspectSet where
  lanes : Vector (AspectRec Aspect) 3
  bay : AspectRec BayAspect
deriving DecidableEq, Repr

/-! ## Approach mode control (spec/07) -/

/-- The causes, in the order of R122. -/
inductive Cause where
  | partState
  | centreOrder
  | weighSilent
  | weighLoss
  | gantryFault
  | detectorFault
  | poolExhausted
  | overload
deriving DecidableEq, Repr

/-- One approach's modes (R122). -/
structure Mode where
  causes : BitVec 8
  lossUntil : Option Time
  stuckCount : Nat
  failedCount : Nat
  lineAsserted : Bool
deriving DecidableEq, Repr

/-! ## Station links and directory (spec/08, spec/09) -/

/-- R137. -/
inductive LinkState where
  | listening
  | receiving
  | sending
deriving DecidableEq, Repr

/-- A frame waiting to be sent. `resetAnswer` marks the answer to RESET PART, which the link reports when it has
been sent (R144, R180). -/
structure TxFrame where
  hop : Byte
  code : Byte
  tag : Byte
  payload : List Byte
  resetAnswer : Bool
deriving DecidableEq, Repr

/-- A link's record (R137). -/
structure LinkRec where
  lineState : LinkState
  rxBytes : List Byte
  rxFailed : Option RxCheck
  chain : Nat
  queue : List TxFrame
  tagCounter : Byte
  framing : Nat
  noise : Nat
  length : Nat
  check : Nat
  strayHop : Nat
  strayAnswer : Nat
deriving DecidableEq, Repr

/-- The roles of a bound entry, with the fields that are present for each (R149). Bit 0 of a lane set is lane 1. -/
inductive Role where
  | weigh (a : Approach) (lanes : BitVec 3)
  | gantry (a : Approach)
  | centre
deriving DecidableEq, Repr

/-- R149: the silence due is present while the entry is LIVE. -/
inductive Liveness where
  | silent
  | live (due : Time)
deriving DecidableEq, Repr

/-- A directory entry (R149); unbound is role NONE. -/
inductive Entry where
  | unbound
  | bound (role : Role) (liveness : Liveness)
deriving DecidableEq, Repr

/-! ## Centre services (spec/10) -/

/-- The events, in the order of R160. -/
inductive Event where
  | overload
  | intrusion
  | violation
  | stall
  | poolOverrun
  | weighLoss
  | weighSilent
  | gantryFault
  | detectorFault
  | linkError
  | closeLost
  | strayDetection
deriving DecidableEq, Repr

/-- Centre services' state: the event summary (R160), the alert mask, in which a member is masked (R166), and the
report due (R167). -/
structure Centre where
  summary : BitVec 12
  mask : BitVec 12
  reportDue : Option Time
deriving DecidableEq, Repr

/-! ## Part state and profile (spec/11) -/

/-- R172. -/
inductive PartState where
  | unconfigured
  | clearing
  | running
  | draining
deriving DecidableEq, Repr

/-- The kinds of reset (R179). -/
inductive ResetKind where
  | supply
  | line
  | command
deriving DecidableEq, Repr

/-- The part state, the clearance due and the reset cause (R172, R179), the reset that holds the part, if one
does, and the timebase (R40). -/
structure Part where
  state : PartState
  clearanceDue : Option Time
  resetCause : ResetKind
  held : Option ResetKind
  timebase : Time
deriving DecidableEq, Repr

/-- The site profile (R169). LINE_ASSIGN and LINE_POLARITY are held by the lines (R46). Times in seconds are in
seconds; a REPORT_PERIOD of 0 is OFF. -/
structure Profile where
  spanCount : Nat
  spanLength : Vector Nat 4
  lanes : Both Nat
  bayCapacity : Both Nat
  distWeighGantry : Both Nat
  distGantryEntry : Both Nat
  distBayEntry : Both Nat
  clearance : Nat
  intruderMass : Nat
  spanLimit : Vector Nat 4
  spanCountLimit : Vector Nat 4
  axleLimit : Nat
  grossLimit : Nat
  degradedMargin : Nat
  tolerance : Nat
  slack : Nat
  crawlSpeed : Nat
  baySpeed : Nat
  bayReleaseTime : Nat
  maxHold : Nat
  guard : Nat
  skipLimit : Nat
  confirmTime : Nat
  silenceLimit : Nat
  minPresence : Nat
  stuckLimit : Nat
  reportPeriod : Nat
  escortWindow : Nat
  escortWaitLimit : Nat
deriving DecidableEq, Repr

/-- The whole part, block by block, and the queue of the commands that wait (log 1). -/
structure State where
  part : Part
  profile : Profile
  links : Vector LinkRec 4
  directory : Vector (Vector Entry 4) 4
  centreLink : LinkNo
  lines : Vector LineRec 20
  deadlines : List Deadline
  table : Table
  account : Vector SpanRec 4
  admission : Admission
  tracking : Both Places
  aspects : Both AspectSet
  modes : Both Mode
  centre : Centre
  pending : List Instr
deriving DecidableEq, Repr

/-- No event stops the part: every refused request is answered, every unmatched detection or answer is a stray,
every failed frame is counted (log 21). So there is no fault, and this type has no constructor. -/
inductive Fault where
deriving DecidableEq, Repr

/-- Why a command has no meaning. -/
inductive Refusal where
  /-- Raised by exec alone, for a command whose meaning is not modelled. Safe: nothing is said of it. -/
  | notModelled (mnemonic : String)
deriving DecidableEq, Repr

/-! ## Reset values -/

/-- R23. -/
def SpanRec.reset : SpanRec :=
  { massLimit := 0, massTarget := none, countLimit := 1, countTarget := none, mass := 0, count := 0,
    forcedMass := 0, forcedCount := 0, presumed := 0, onMass := 0, onCount := 0, overloaded := false }

/-- R46; the level on the pin is none of the part's (DESIGN CHOICE, log 11). -/
def LineRec.reset (level : Bool) : LineRec :=
  { point := none, polarity := .high, state := .absent, lastCapture := 0, noise := 0, confirmDue := none,
    stuckDue := none, level := level }

/-- R8, R9, R16, R17. -/
def Table.reset : Table :=
  { tickets := [], freeCells := Config.cellPool, closeQueue := [], poolOverruns := 0, intrusions := 0,
    violations := 0, strays := 0, closeLost := 0 }

/-- R56. -/
def Admission.reset : Admission :=
  { hold := ⟨⟨[], []⟩, ⟨[], []⟩⟩, turn := .A, skip := ⟨0, 0⟩, escortSlot := none, baySignal := ⟨.idle, .idle⟩ }

/-- R82. -/
def Places.reset : Places :=
  { lanes := .replicate 3 [], leaving := none, run := [], watch := [], spans := .replicate 4 [] }

/-- R105. -/
def laneReset : AspectRec Aspect :=
  { wanted := .rest, ordered := none, confirmed := none, order := .idle, pending := none }

/-- R106. -/
def bayReset : AspectRec BayAspect :=
  { wanted := .hold, ordered := none, confirmed := none, order := .idle, pending := none }

/-- R105, R106. -/
def AspectSet.reset : AspectSet := { lanes := .replicate 3 laneReset, bay := bayReset }

/-- R122: PART_STATE, WEIGH_SILENT and GANTRY_FAULT, before lane 1 has become FAILED. -/
def Mode.reset : Mode :=
  { causes := 0b00010101#8, lossUntil := none, stuckCount := 0, failedCount := 0, lineAsserted := true }

/-- R137. -/
def LinkRec.reset : LinkRec :=
  { lineState := .listening, rxBytes := [], rxFailed := none, chain := 1, queue := [], tagCounter := 0,
    framing := 0, noise := 0, length := 0, check := 0, strayHop := 0, strayAnswer := 0 }

/-- R149, R150: only the strapped centre is bound, LIVE, with silence due 2000. -/
def directoryReset (centreLink : LinkNo) : Vector (Vector Entry 4) 4 :=
  (Vector.replicate 4 (Vector.replicate 4 Entry.unbound)).set centreLink
    ((Vector.replicate 4 Entry.unbound).set 0 (.bound .centre (.live 2000)))

/-- R160, R166, R167. -/
def Centre.reset : Centre := { summary := 0, mask := 0, reportDue := none }

/-- R169. -/
def Profile.reset : Profile :=
  { spanCount := 1, spanLength := .replicate 4 0, lanes := ⟨1, 1⟩, bayCapacity := ⟨0, 0⟩,
    distWeighGantry := ⟨0, 0⟩, distGantryEntry := ⟨0, 0⟩, distBayEntry := ⟨0, 0⟩, clearance := 300,
    intruderMass := 4400, spanLimit := .replicate 4 0, spanCountLimit := .replicate 4 1, axleLimit := 1000,
    grossLimit := 4400, degradedMargin := 10, tolerance := 20, slack := 5000, crawlSpeed := 50, baySpeed := 150,
    bayReleaseTime := 30, maxHold := 900, guard := 3000, skipLimit := 3, confirmTime := 500, silenceLimit := 2000,
    minPresence := 80, stuckLimit := 120, reportPeriod := 0, escortWindow := 600, escortWaitLimit := 1800 }

/-- R119: at the end of the reset lane 1 wants DIVERT and, since no gantry is bound, its attempt has failed. -/
def aspectsAfterReset : AspectSet :=
  { lanes := (Vector.replicate 3 laneReset).set 0 { laneReset with wanted := .divert, order := .failed },
    bay := bayReset }

/-- The part right after a reset: every field at the value its chapter gives, and what R119, R122 and R179 say of
the end of the reset. The reset cause (SUPPLY, log 10), the straps (both low, log 9) and the line levels (low, log
11) are DESIGN CHOICES. -/
def State.reset : State :=
  { part := { state := .unconfigured, clearanceDue := none, resetCause := .supply, held := none, timebase := 0 },
    profile := Profile.reset,
    links := .replicate 4 LinkRec.reset,
    directory := directoryReset 0,
    centreLink := 0,
    lines := .replicate 20 (LineRec.reset false),
    deadlines := [],
    table := Table.reset,
    account := .replicate 4 SpanRec.reset,
    admission := Admission.reset,
    tracking := ⟨Places.reset, Places.reset⟩,
    aspects := ⟨aspectsAfterReset, aspectsAfterReset⟩,
    modes := ⟨{ Mode.reset with failedCount := 1 }, { Mode.reset with failedCount := 1 }⟩,
    centre := Centre.reset,
    pending := [] }

end Sys2Proof.Machine
end

