-- ==== Sys2Proof/Machine/Flags.lean ====
section
/-! DEFINITION. The sets the part keeps as bit fields (R162): the event summary and the alert mask (R160, R166), the
cause sets (R122), the ticket flags (R6), the claim sets (R4) and the lane sets (R149). Bit 0 is the first member
of its list. -/

namespace Sys2Proof.Machine

/-- Whether a set has the member at a place of its list. -/
def member {n : Nat} (s : BitVec n) (i : Nat) : Bool := s.getLsbD i

/-- The set with one more member. -/
def withMember {n : Nat} (s : BitVec n) (i : Nat) : BitVec n := s ||| BitVec.twoPow n i

/-- The set without one member. -/
def withoutMember {n : Nat} (s : BitVec n) (i : Nat) : BitVec n := s &&& ~~~(BitVec.twoPow n i)

/-- The place of a cause in the list of R122. -/
def Cause.index : Cause → Nat
  | .partState => 0
  | .centreOrder => 1
  | .weighSilent => 2
  | .weighLoss => 3
  | .gantryFault => 4
  | .detectorFault => 5
  | .poolExhausted => 6
  | .overload => 7

/-- The place of an event in the list of R160. -/
def Event.index : Event → Nat
  | .overload => 0
  | .intrusion => 1
  | .violation => 2
  | .stall => 3
  | .poolOverrun => 4
  | .weighLoss => 5
  | .weighSilent => 6
  | .gantryFault => 7
  | .detectorFault => 8
  | .linkError => 9
  | .closeLost => 10
  | .strayDetection => 11

/-- The place of a ticket flag in the table of R6. -/
def TicketFlag.index : TicketFlag → Nat
  | .gantryPresumed => 0
  | .crossLane => 1
  | .countermanded => 2
  | .demoted => 3
  | .promoted => 4
  | .exitPresumed => 5
  | .entryPresumed => 6
  | .overdue => 7
  | .violation => 8
  | .stalled => 9

/-- Whether a ticket carries a flag (R6). -/
def Ticket.has (t : Ticket) (f : TicketFlag) : Bool := member t.flags f.index

/-- R6: a flag, once set, stays set; setting it again changes nothing. -/
def Ticket.flag (t : Ticket) (f : TicketFlag) : Ticket := { t with flags := withMember t.flags f.index }

/-- The ticket with several flags set. -/
def Ticket.flagAll (t : Ticket) (fs : List TicketFlag) : Ticket := fs.foldl Ticket.flag t

/-- The causes that raise an event of the same name when they are added (R123). -/
def Cause.event : Cause → Option Event
  | .weighLoss => some .weighLoss
  | .weighSilent => some .weighSilent
  | .gantryFault => some .gantryFault
  | .detectorFault => some .detectorFault
  | .partState => none
  | .centreOrder => none
  | .poolExhausted => none
  | .overload => none

/-- A set of up to 16 members as it is sent (R162). -/
def setBytes {n : Nat} (s : BitVec n) : List Byte := be16 (s.setWidth 16)

end Sys2Proof.Machine
end

