-- ==== Sys2Proof/Machine/Operands.lean ====
section
/-! DEFINITION. How the fields of payloads are read and sent (R148, R162, spec/08 sections 8.8 and 8.9). -/

namespace Sys2Proof.Machine

/-! ## Reading -/

/-- The byte at an offset of a payload, as a number; the callers check the payload's length. -/
def byteAt (p : List Byte) (i : Nat) : Nat := (p.getD i 0).toNat

/-- The 2-byte field at an offset, most significant byte first. -/
def wordAt (p : List Byte) (i : Nat) : Nat := byteAt p i * 256 + byteAt p (i + 1)

/-- The 4-byte field at an offset, most significant byte first. -/
def longAt (p : List Byte) (i : Nat) : Nat := wordAt p i * 65536 + wordAt p (i + 2)

/-- `n` axle loads of 2 bytes each, from an offset on. -/
def loadsAt (p : List Byte) : Nat → Nat → List Nat
  | _, 0 => []
  | i, n + 1 => wordAt p i :: loadsAt p (i + 2) n

/-- An approach: 0 for A, 1 for B. -/
def approachOf : Nat → Option Approach
  | 0 => some .A
  | 1 => some .B
  | _ => none

/-- A number below a bound. -/
def below (n : Nat) (v : Nat) : Option (Fin n) := if h : v < n then some ⟨v, h⟩ else none

/-- A number from 1 up to a bound, counted from 0. -/
def countedFrom1 (n : Nat) (v : Nat) : Option (Fin n) := if v = 0 then none else below n (v - 1)

/-- The chain position a hop names (R140, R149). -/
def positionOf (hop : Byte) : Option PosNo := countedFrom1 4 hop.toNat

/-- The hop of a chain position (R141). -/
def hopOf (p : PosNo) : Byte := BitVec.ofNat 8 (p.val + 1)

/-! ## Sending -/

/-- A 1-byte field. -/
def one (n : Nat) : List Byte := [BitVec.ofNat 8 n]

/-- A 2-byte field. -/
def two (n : Nat) : List Byte := be16 (BitVec.ofNat 16 n)

/-- A 4-byte field. -/
def four (n : Nat) : List Byte :=
  let w := BitVec.ofNat 32 n
  be16 (w.extractLsb' 16 16) ++ be16 (w.extractLsb' 0 16)

/-- A time (R162). -/
def timeBytes (t : Time) : List Byte := four t.toNat

/-- R148: an absent field is sent as 0. -/
def orZero {α : Type} (code : α → Nat) : Option α → Nat
  | none => 0
  | some x => code x

/-- R162: an absent ordered or pending aspect and an UNKNOWN confirmed aspect are sent as 255. -/
def or255 {α : Type} (code : α → Nat) : Option α → Nat
  | none => 255
  | some x => code x

/-- R162: yes is sent as 1 and no as 0. The manual says so of "claims forced" (DEDUCED for overloaded, log 16). -/
def yesNo (b : Bool) : Nat := if b then 1 else 0

/-- The statuses (spec/08, section 8.8). -/
inductive Status where
  | done
  | empty
  | unknownKind
  | notPermitted
  | badValue
  | wrongState
  | noTicket
  | poolEmpty
  | badProfile
  | conflict
  | shown
  | lampFault
deriving DecidableEq, Repr

/-- The codes of the statuses (spec/08, section 8.8). -/
def Status.code : Status → Nat
  | .done => 0
  | .empty => 1
  | .unknownKind => 2
  | .notPermitted => 3
  | .badValue => 4
  | .wrongState => 5
  | .noTicket => 6
  | .poolEmpty => 7
  | .badProfile => 8
  | .conflict => 9
  | .shown => 10
  | .lampFault => 11

/-- The status byte of an answer. -/
def Status.byte (st : Status) : List Byte := one st.code

/-- R162. -/
def approachCode : Approach → Nat
  | .A => 0
  | .B => 1

/-- Spec/08, section 8.9. -/
def Decision.code : Decision → Nat
  | .pass => 1
  | .hold => 2
  | .divert => 3

/-- Spec/08, section 8.9. -/
def Reason.code : Reason → Nat
  | .axleOver => 1
  | .grossOver => 2
  | .spanOver => 3
  | .lowConfidence => 4
  | .approachRestricted => 5
  | .escortActive => 6
  | .bayFull => 7
  | .signGuard => 8
  | .bayOverdue => 9

/-- Spec/08, section 8.9. -/
def Aspect.code : Aspect → Nat
  | .rest => 0
  | .proceed => 1
  | .toBay => 2
  | .divert => 3

/-- Spec/08, section 8.9. -/
def BayAspect.code : BayAspect → Nat
  | .hold => 0
  | .releaseViaduct => 1
  | .releaseDivert => 2

/-- R162: the place in the list of part states, from 1. -/
def PartState.code : PartState → Nat
  | .unconfigured => 1
  | .clearing => 2
  | .running => 3
  | .draining => 4

/-- R179. -/
def ResetKind.code : ResetKind → Nat
  | .supply => 1
  | .line => 2
  | .command => 3

/-- R162: the place in the table of R1, from 1. -/
def Origin.code : Origin → Nat
  | .weighed => 1
  | .escort => 2
  | .intruder => 3

/-- R162: the place in the table of R14, from 1. -/
def CloseOutcome.code : CloseOutcome → Nat
  | .crossed => 1
  | .violated => 2
  | .intruded => 3
  | .complied => 4
  | .lapsed => 5
  | .writtenOff => 6
  | .cancelled => 7

/-- R162: the place in the table of R5, from 1. -/
def TicketState.code : TicketState → Nat
  | .nearing => 1
  | .bayed => 2
  | .leavingBay => 3
  | .runningIn => 4
  | .watched => 5
  | .crossing => 6
  | .escortWait => 7

/-- R162: the place in the table of R5, from 1. -/
def DueKind.code : DueKind → Nat
  | .gantryDue => 1
  | .bayLimit => 2
  | .releaseDue => 3
  | .entryDue => 4
  | .watchEnd => 5
  | .spanDue => 6
  | .waitLimit => 7

/-- R162: in the order GOOD, DEGRADED, BAD, from 1; absent is 0. -/
def Confidence.code : Confidence → Nat
  | .good => 1
  | .degraded => 2
  | .bad => 3

/-- R18: the confidence field of a weigh record counts from 0. -/
def confidenceOf : Nat → Option Confidence
  | 0 => some .good
  | 1 => some .degraded
  | 2 => some .bad
  | _ => none

/-- QUERY LINE: the states ABSENT to STUCK, 1 to 4. -/
def LineState.code : LineState → Nat
  | .absent => 1
  | .confirming => 2
  | .present => 3
  | .stuck => 4

/-- QUERY LINE. -/
def Polarity.code : Polarity → Nat
  | .high => 0
  | .low => 1

/-- QUERY STATION: 1 IDLE, 2 AWAITING, 3 FAILED. -/
def OrderState.code : OrderState → Nat
  | .idle => 1
  | .awaiting _ _ => 2
  | .failed => 3

/-- The tag of an outstanding order; 0 when there is none (R148). -/
def OrderState.tagCode : OrderState → Nat
  | .awaiting tag _ => tag.toNat
  | .idle => 0
  | .failed => 0

/-- The confirm due of an outstanding order; 0 when there is none (R148). -/
def OrderState.dueTime : OrderState → Time
  | .awaiting _ due => due
  | .idle => 0
  | .failed => 0

/-- QUERY LINE: the kind of a point. -/
def PointKind.code : PointKind → Nat
  | .gantry _ => 1
  | .bayExit => 2
  | .entry => 3
  | .boundary _ => 4
  | .exit => 5

/-- QUERY LINE: the lane or boundary number of a point, or 0. -/
def PointKind.number : PointKind → Nat
  | .gantry l => l.val + 1
  | .boundary k => k.val + 1
  | .bayExit => 0
  | .entry => 0
  | .exit => 0

/-- The three assignment fields of QUERY LINE: approach, kind, number. -/
def assignmentFields : Option Point → List Nat
  | none => [0, 0, 0]
  | some pt => [approachCode pt.approach, pt.kind.code, pt.kind.number]

/-- The value of LINE_ASSIGN: the three assignment fields in its three low bytes (R170). -/
def assignmentValue : Option Point → Nat
  | none => 0
  | some pt => approachCode pt.approach * 65536 + pt.kind.code * 256 + pt.kind.number

/-- The kind of a point from its kind and number fields (R170). -/
def pointKindOf : Nat → Nat → Option PointKind
  | 1, n => (countedFrom1 3 n).map .gantry
  | 2, 0 => some .bayExit
  | 3, 0 => some .entry
  | 4, n => (countedFrom1 3 n).map .boundary
  | 5, 0 => some .exit
  | _, _ => none

/-- R170, check 3 for LINE_ASSIGN: the assignment a value names, or none when it is out of range. -/
def assignmentOf (v : Nat) : Option (Option Point) :=
  if v = 0 then some none
  else
    match approachOf (v / 65536), pointKindOf (v / 256 % 256) (v % 256) with
    | some a, some kind => some (some ⟨a, kind⟩)
    | _, _ => none

/-- The kind codes of the frames the part sends (spec/08, section 8.8). -/
inductive TxKind where
  | answer
  | aspectOrder
  | bayOrder
  | alert
  | spanReport
  | escortGranted
deriving DecidableEq, Repr

/-- Spec/08, section 8.8. -/
def TxKind.code : TxKind → Byte
  | .answer => 0x03
  | .aspectOrder => 0x20
  | .bayOrder => 0x21
  | .alert => 0x30
  | .spanReport => 0x31
  | .escortGranted => 0x32

end Sys2Proof.Machine
end

