-- ==== Sys2Proof/Machine/Ops.lean ====
section
/-! DEFINITION. The operations every block uses: the two approaches, the timebase and its dues, the ticket and cell
pools, the deadline list, the transmit queues, events and their ALERTs, and the reports that blocks make to one
another. -/

namespace Sys2Proof.Machine

/-! ## One thing for each approach, one thing for each number -/

/-- The thing of an approach. -/
def Both.get {α : Type} (x : Both α) : Approach → α
  | .A => x.A
  | .B => x.B

/-- Replace the thing of an approach. -/
def Both.set {α : Type} (x : Both α) (a : Approach) (v : α) : Both α :=
  match a with
  | .A => { x with A := v }
  | .B => { x with B := v }

/-- The other approach. -/
def other : Approach → Approach
  | .A => .B
  | .B => .A

/-- Change one element of a vector. -/
def upd {α : Type} {n : Nat} (v : Vector α n) (i : Fin n) (f : α → α) : Vector α n := v.set i (f (v.get i))

/-- Spans 1 to 4. -/
def allSpans : List SpanNo := [0, 1, 2, 3]

/-- Lanes 1 to 3. -/
def allLanes : List LaneNo := [0, 1, 2]

/-- Links 0 to 3, and chain positions 1 to 4. -/
def allFour : List (Fin 4) := [0, 1, 2, 3]

/-- Lines D0 to D19. -/
def allLines : List LineNo := [0, 1, 2, 3, 4, 5, 6, 7, 8, 9, 10, 11, 12, 13, 14, 15, 16, 17, 18, 19]

/-- One more, stopping at 65,535 (Conventions, Counts). -/
def countUp (n : Nat) : Nat := if n < Config.countLimit then n + 1 else n

/-! ## Time -/

/-- "Now": the timebase at the event (Conventions, Time). -/
def State.now (s : State) : Time := s.part.timebase

/-- R41: a due has come when the signed 32-bit difference of the timebase less the due is zero or more. -/
def hasCome (now due : Time) : Bool := decide (0 ≤ (now - due).toInt)

/-- R41: the first due is earlier than the second when the signed difference of the second less the first is
positive. -/
def earlier (d1 d2 : Time) : Bool := decide (0 < (d2 - d1).toInt)

/-- A time some milliseconds after another; it wraps (R40). -/
def after (t : Time) (ms : Nat) : Time := t + BitVec.ofNat 32 ms

/-- R42: travel(d, v), in ms, rounded down. -/
def travel (d v : Nat) : Nat := d * 36000 / v

/-- R42: stretch(t), with TOLERANCE and SLACK as they stand. -/
def State.stretch (s : State) (t : Nat) : Nat := t * (100 + s.profile.tolerance) / 100 + s.profile.slack

/-- Whether the part is held in reset (R179). -/
def State.inReset (s : State) : Bool := s.part.held.isSome

/-! ## Tickets and pools -/

/-- The record of a live ticket. -/
def State.ticket (s : State) (h : Handle) : Option Ticket := s.table.tickets.find? fun t => t.handle == h

/-- Change the record of a live ticket. -/
def State.updTicket (s : State) (h : Handle) (f : Ticket → Ticket) : State :=
  { s with table := { s.table with tickets := s.table.tickets.map fun t => if t.handle = h then f t else t } }

/-- R8: the number of free handles. -/
def State.freeHandles (s : State) : Nat := Config.ticketPool - s.table.tickets.length

/-- R8: the lowest free handle. -/
def State.lowestFree (s : State) : Option Handle :=
  ((List.range Config.ticketPool).map (· + 1)).find? fun h => (s.ticket h).isNone

/-- R9: a ticket with n axles holds n / 3 cells, rounded up. -/
def cellsFor (n : Nat) : Nat := (n + 2) / 3

/-- Put a new record in its place in the order of handles. -/
def insertTicket (t : Ticket) : List Ticket → List Ticket
  | [] => [t]
  | u :: us => if t.handle < u.handle then t :: u :: us else u :: insertTicket t us

/-- R10, R11: the handle and the cells are taken by a new record. -/
def State.addTicket (s : State) (t : Ticket) : State :=
  { s with table := { s.table with
      tickets := insertTicket t s.table.tickets,
      freeCells := s.table.freeCells - cellsFor t.axles.length } }

/-- R10: an ordinary allocation for n axles: the lowest free handle, if more than four are free and the cells
suffice; otherwise nothing is taken. -/
def State.ordinaryHandle (s : State) (n : Nat) : Option Handle :=
  if s.freeHandles ≤ Config.reserve then none
  else if s.table.freeCells < cellsFor n then none
  else s.lowestFree

/-- R13, step 5: the handle and the cells return to the pools. -/
def State.removeTicket (s : State) (t : Ticket) : State :=
  { s with table := { s.table with
      tickets := s.table.tickets.filter fun u => u.handle != t.handle,
      freeCells := s.table.freeCells + cellsFor t.axles.length } }

/-! ## The deadline list -/

/-- R53: after every entry whose due is earlier or equal, before the first whose due is later. -/
def insertDeadline (d : Deadline) : List Deadline → List Deadline
  | [] => [d]
  | e :: es => if earlier d.due e.due then d :: e :: es else e :: insertDeadline d es

/-- R53: the ticket's entry is removed without being delivered. -/
def State.dropDue (s : State) (h : Handle) : State :=
  { s with deadlines := s.deadlines.filter fun d => d.handle != h }

/-- R53: the ticket's previous entry is removed and the due of its new phase is inserted. -/
def State.setDue (s : State) (h : Handle) (kind : DueKind) (due : Time) : State :=
  let s := s.dropDue h
  { s with deadlines := insertDeadline { due := due, handle := h, kind := kind } s.deadlines }

/-- R52: a ticket's due field is its entry in the list. -/
def State.dueOf (s : State) (h : Handle) : Option Deadline := s.deadlines.find? fun d => d.handle == h

/-- R54: the head of the list is removed and delivered when its due has come; the row names its kind. -/
def State.takeDue (s : State) (kind : DueKind) : Option (Deadline × State) :=
  match s.deadlines with
  | [] => none
  | d :: ds => if d.kind = kind ∧ hasCome s.now d.due = true then some (d, { s with deadlines := ds }) else none

/-! ## Links, events and what is sent -/

/-- A link's record. -/
def State.link (s : State) (k : LinkNo) : LinkRec := s.links.get k

/-- Change a link's record. -/
def State.updLink (s : State) (k : LinkNo) (f : LinkRec → LinkRec) : State := { s with links := upd s.links k f }

/-- The directory entry of a position. -/
def State.entry (s : State) (k : LinkNo) (p : PosNo) : Entry := (s.directory.get k).get p

/-- Write the directory entry of a position. -/
def State.setEntry (s : State) (k : LinkNo) (p : PosNo) (e : Entry) : State :=
  { s with directory := upd s.directory k fun row => upd row p fun _ => e }

/-- Whether an entry is LIVE (R149). -/
def Entry.isLive : Entry → Bool
  | .bound _ (.live _) => true
  | .bound _ .silent => false
  | .unbound => false

/-- Whether the centre's directory entry is LIVE (R150, R161). -/
def State.centreLive (s : State) : Bool := (s.entry s.centreLink 0).isLive

/-- R143: whether a link's transmit queue has room. -/
def State.hasRoom (s : State) (k : LinkNo) : Bool := decide ((s.link k).queue.length < Config.transmitQueueSize)

/-- R143: the frame joins the queue at its tail; the callers have found room. -/
def State.enqueue (s : State) (k : LinkNo) (f : TxFrame) : State :=
  s.updLink k fun r => { r with queue := r.queue ++ [f] }

/-- A frame the part sends to a hop. -/
def txFrame (hop : Byte) (kind : TxKind) (tag : Byte) (payload : List Byte) : TxFrame :=
  { hop := hop, code := kind.code, tag := tag, payload := payload, resetAnswer := false }

/-- R160: the event's flag is set. -/
def State.setEvent (s : State) (e : Event) : State :=
  { s with centre := { s.centre with summary := withMember s.centre.summary e.index } }

/-- The ALERT of an event (R161, spec/10). An event that names no approach sends 2, no span 0, no ticket 0 (R148). -/
def alertFrame (e : Event) (a : Option Approach) (span : Option SpanNo) (h : Handle) (now : Time) : TxFrame :=
  txFrame 1 .alert 0
    (one (e.index + 1) ++ one (match a with | none => 2 | some a => approachCode a) ++ one (orZero (·.val + 1) span)
      ++ one h ++ timeBytes now)

/-- R160, R161: an event is raised. Its flag is set; if it is unmasked and the centre is LIVE, its ALERT is offered
to the centre's link, and a full queue sets the LINK_ERROR flag and nothing more (R143). -/
def State.raise (s : State) (e : Event) (a : Option Approach) (span : Option SpanNo) (h : Handle) : State :=
  let s := s.setEvent e
  if member s.centre.mask e.index = true ∨ s.centreLive = false then s
  else if s.hasRoom s.centreLink = true then s.enqueue s.centreLink (alertFrame e a span h s.now)
  else s.setEvent .linkError

/-- R143: an answer or a SPAN REPORT or ESCORT GRANTED notice is offered; a full queue drops it and raises
LINK_ERROR. -/
def State.offer (s : State) (k : LinkNo) (f : TxFrame) : State :=
  if s.hasRoom k = true then s.enqueue k f else s.raise .linkError none none 0

/-- R145, R147: the answer to a request carries its tag, a status and the result bytes, and goes to the position it
came from (R141). -/
def State.answer (s : State) (k : LinkNo) (f : Frame) (payload : List Byte) : State :=
  s.offer k (txFrame f.hop .answer f.tag payload)

/-- A notice to the centre, offered if its entry is LIVE (R154, R167, R168). -/
def State.notify (s : State) (kind : TxKind) (payload : List Byte) : State :=
  if s.centreLive = true then s.offer s.centreLink (txFrame 1 kind 0 payload) else s

/-! ## Reports between blocks

A block changes another block's state only by asking its owner (spec/00_scope.md). A request whose effect belongs
to the transition in hand is a function call. A report that the receiving block takes afterwards (R83, R110, R116,
R134) is a Signal; a transition gives the signals it makes in order, and Signals.lean takes them. -/

/-- What one block reports to another. -/
inductive Signal where
  /-- To approach mode control: a cause is to be added on an approach. -/
  | addCause (a : Approach) (c : Cause)
  /-- To approach mode control: a cause is to be removed on an approach. -/
  | removeCause (a : Approach) (c : Cause)
  /-- Part state to approach mode control, R124: PART_STATE is added on both approaches. -/
  | leftRunning
  /-- Part state to approach mode control, R124: PART_STATE is removed from both approaches. -/
  | enteredRunning
  /-- Span account to approach mode control, R35: a span has become overloaded. -/
  | overloaded
  /-- Tracking to approach mode control, R95, R100: an intruder could not be ticketed. -/
  | unticketedIntruder (a : Approach)
  /-- Approach mode control, R136: OVERLOAD is acknowledged. -/
  | overloadAcknowledged
  /-- To approach mode control, R126: a refused record or a commit. -/
  | weighLoss (a : Approach)
  /-- Directory or aspect unit to approach mode control, R127. -/
  | judgeGantry (a : Approach)
  /-- Directory or part state to approach mode control, R125. -/
  | judgeWeigh (a : Approach)
  /-- To the aspect unit, R108: a lane is to be derived again. -/
  | deriveLane (a : Approach) (l : LaneNo)
  /-- To the aspect unit, R111: a lane is to attempt an order for an aspect, with the handle of its head (R120). -/
  | attemptLane (a : Approach) (l : LaneNo) (x : Aspect) (h : Handle)
  /-- To the aspect unit, R111: a bay signal is to attempt an order for an aspect, with a handle (R121). -/
  | attemptBay (a : Approach) (x : BayAspect) (h : Handle)
  /-- Aspect unit to admission unit, R109: the demotion of a ticket is called. -/
  | demote (h : Handle)
  /-- To the admission unit, R63: the release arbiter is to run. -/
  | arbiter
  /-- Tracking to admission unit, R73: the leaving slot has emptied. -/
  | leavingEmpty (a : Approach)
  /-- Crossing table to approach mode control, R129: the pools after a closing. -/
  | poolReport
  /-- Crossing table to part state, R13, R177: a closing left no live ticket. -/
  | noLiveTicket
deriving DecidableEq, Repr

/-- What a transition leaves: the state, and the reports it made, in order. -/
structure Eff where
  st : State
  out : List Signal
deriving DecidableEq, Repr

/-- A transition that makes no report. -/
def Eff.of (s : State) : Eff := { st := s, out := [] }

/-- One transition after another. -/
def Eff.bind (e : Eff) (f : State → Eff) : Eff :=
  let r := f e.st
  { st := r.st, out := e.out ++ r.out }

/-- A change of state after a transition. -/
def Eff.map (e : Eff) (f : State → State) : Eff := { e with st := f e.st }

/-- More reports after a transition. -/
def Eff.emit (e : Eff) (gs : List Signal) : Eff := { e with out := e.out ++ gs }

/-- The same transition for each of a list, in order. -/
def Eff.each {α : Type} (xs : List α) (f : α → State → Eff) (s : State) : Eff :=
  xs.foldl (fun e x => e.bind (f x)) (Eff.of s)

end Sys2Proof.Machine
end

