-- ==== Sys2Proof/Machine/Account.lean ====
section
/-! DEFINITION. The span account (spec/02): limits, claims, releases, forced claims, overload. -/

namespace Sys2Proof.Machine

/-! ## Directions (Conventions, Direction order) -/

/-- Spans 1 to S. -/
def State.spansInUse (s : State) : List SpanNo := allSpans.filter fun i => decide (i.val < s.profile.spanCount)

/-- The spans in the order an approach crosses them. -/
def State.route (s : State) (a : Approach) : List SpanNo :=
  match a with
  | .A => s.spansInUse
  | .B => s.spansInUse.reverse

/-- Whether span i comes before span j in an approach's direction. -/
def spanBefore (a : Approach) (i j : SpanNo) : Bool :=
  match a with
  | .A => decide (i < j)
  | .B => decide (j < i)

/-- The last span number in use, counted from 0. -/
def State.topSpan (s : State) : SpanNo := Fin.ofNat 4 (min 3 (s.profile.spanCount - 1))

/-- The first span of an approach's direction: span 1 for A, span S for B. -/
def State.firstSpan (s : State) (a : Approach) : SpanNo :=
  match a with
  | .A => 0
  | .B => s.topSpan

/-- The last span of an approach's direction: span S for A, span 1 for B. -/
def State.lastSpan (s : State) (a : Approach) : SpanNo :=
  match a with
  | .A => s.topSpan
  | .B => 0

/-- A span and the spans after it in an approach's direction. -/
def State.spansFrom (s : State) (a : Approach) (i : SpanNo) : List SpanNo :=
  (s.route a).filter fun j => !spanBefore a j i

/-- The spans before a span in an approach's direction. -/
def State.spansBefore (s : State) (a : Approach) (i : SpanNo) : List SpanNo :=
  (s.route a).filter fun j => spanBefore a j i

/-- A span and the spans before it, nearest first: the order in which R98 and R101 search. -/
def State.spansBackFrom (s : State) (a : Approach) (i : SpanNo) : List SpanNo :=
  ((s.route a).filter fun j => !spanBefore a i j).reverse

/-- A list of spans as a claim set (R4). -/
def claimSet (is : List SpanNo) : BitVec 4 := is.foldl (fun c i => withMember c i.val) 0

/-- The spans of a ticket's claim set, in its direction order. -/
def claimedSpans (t : Ticket) : List SpanNo :=
  (match t.approach with | .A => allSpans | .B => allSpans.reverse).filter fun i => member t.claims i.val

/-! ## The span record -/

/-- A span's record. -/
def State.spanRec (s : State) (i : SpanNo) : SpanRec := s.account.get i

/-- Change a span's record. -/
def State.updSpan (s : State) (i : SpanNo) (f : SpanRec → SpanRec) : State := { s with account := upd s.account i f }

/-- R24: the mass of the claims the admission unit placed. -/
def SpanRec.unforcedMass (r : SpanRec) : Nat := r.mass - r.forcedMass - r.presumed

/-- R24: the number of the claims the admission unit placed. -/
def SpanRec.unforcedCount (r : SpanRec) : Nat := r.count - r.forcedCount

/-- R25: the lesser of the effective and target values, taking only those that are present. -/
def inForce (effective : Nat) : Option Nat → Nat
  | none => effective
  | some t => min effective t

/-- R28: the claim test on one span. -/
def SpanRec.admits (r : SpanRec) (m : Nat) : Bool :=
  decide (r.mass + m ≤ inForce r.massLimit r.massTarget) && decide (r.count + 1 ≤ inForce r.countLimit r.countTarget)

/-- R30: the escort test on one span. -/
def SpanRec.admitsEscort (r : SpanRec) (m : Nat) : Bool :=
  decide (r.unforcedCount = 0) && decide (r.forcedMass + m ≤ r.massLimit) && decide (r.forcedCount + 1 ≤ r.countLimit)

/-- R29, R30: an unforced claim of mass m is placed. -/
def SpanRec.place (r : SpanRec) (m : Nat) : SpanRec := { r with mass := r.mass + m, count := r.count + 1 }

/-- R34: a forced claim of mass m is placed. -/
def SpanRec.placeForced (r : SpanRec) (m : Nat) : SpanRec :=
  { r with mass := r.mass + m, count := r.count + 1, forcedMass := r.forcedMass + m, forcedCount := r.forcedCount + 1 }

/-- R32: a claim of mass m is given back. -/
def SpanRec.release (r : SpanRec) (m : Nat) (forced : Bool) : SpanRec :=
  if forced then
    { r with mass := r.mass - m, count := r.count - 1, forcedMass := r.forcedMass - m, forcedCount := r.forcedCount - 1 }
  else { r with mass := r.mass - m, count := r.count - 1 }

/-- R26: the presumed load changes, and the claimed mass by the same amount. -/
def SpanRec.presume (r : SpanRec) (p : Nat) : SpanRec := { r with mass := r.mass - r.presumed + p, presumed := p }

/-- R35: the overload condition. -/
def SpanRec.isOver (r : SpanRec) : Bool :=
  decide (r.massLimit < r.mass - r.presumed) || decide (r.countLimit < r.count)

/-- R26: whether the presumed load of a span follows its limit: in CLEARING, on spans 1 to S alone. -/
def State.presumes (s : State) (i : SpanNo) : Bool :=
  decide (s.part.state = .clearing) && decide (i.val < s.profile.spanCount)

/-- An effective mass limit takes a value: its target becomes absent, and in CLEARING P_s follows (R33, R37, R38). -/
def SpanRec.takeMassLimit (r : SpanRec) (v : Nat) (follow : Bool) : SpanRec :=
  let r := { r with massLimit := v, massTarget := none }
  if follow then r.presume v else r

/-- An effective count limit takes a value: its target becomes absent (R33, R37, R38). -/
def SpanRec.takeCountLimit (r : SpanRec) (v : Nat) : SpanRec := { r with countLimit := v, countTarget := none }

/-- R33: a pending target takes effect when the unforced part fits under it. -/
def SpanRec.settleMassTarget (r : SpanRec) (follow : Bool) : SpanRec :=
  match r.massTarget with
  | none => r
  | some t => if r.unforcedMass ≤ t then r.takeMassLimit t follow else r

/-- R33: the two targets are tested and take effect independently. -/
def SpanRec.settleCountTarget (r : SpanRec) : SpanRec :=
  match r.countTarget with
  | none => r
  | some t => if r.unforcedCount ≤ t then r.takeCountLimit t else r

/-- R27: a CROSSING ticket of mass m comes onto the span. -/
def SpanRec.enter (r : SpanRec) (m : Nat) : SpanRec := { r with onMass := r.onMass + m, onCount := r.onCount + 1 }

/-- R27: a CROSSING ticket of mass m leaves the span. -/
def SpanRec.leave (r : SpanRec) (m : Nat) : SpanRec := { r with onMass := r.onMass - m, onCount := r.onCount - 1 }

/-! ## Requests -/

/-- R28: whether a ticket of mass m fits on every span 1 to S. -/
def State.fits (s : State) (m : Nat) : Bool := s.spansInUse.all fun i => (s.spanRec i).admits m

/-- R30: whether an escort of mass m passes the escort test on every span 1 to S. -/
def State.fitsEscort (s : State) (m : Nat) : Bool := s.spansInUse.all fun i => (s.spanRec i).admitsEscort m

/-- R29: the claims of a ticket are placed on every span 1 to S and recorded on it, unforced. -/
def State.placeUnforced (s : State) (h : Handle) (m : Nat) : State :=
  let s' := s.spansInUse.foldl (fun s i => s.updSpan i fun r => r.place m) s
  s'.updTicket h fun t => { t with claims := claimSet s.spansInUse, forced := false }

/-- R35: the overloaded field follows the condition. When it goes from no to yes the OVERLOAD event is raised, with
the approach and the ticket that the cause of it names (none and 0 for a limit change, log 15), and approach mode
control is told. -/
def evalOverload (a : Option Approach) (h : Handle) (i : SpanNo) (s : State) : Eff :=
  let isOver := (s.spanRec i).isOver
  let was := (s.spanRec i).overloaded
  let s := s.updSpan i fun r => { r with overloaded := isOver }
  if isOver = true ∧ was = false then { st := s.raise .overload a (some i) h, out := [.overloaded] } else Eff.of s

/-- R34: forced claims are placed without a test on the spans named and recorded on the ticket, forced; then the
overloaded condition of each span is evaluated, in direction order. -/
def placeForced (h : Handle) (a : Approach) (m : Nat) (is : List SpanNo) (s : State) : Eff :=
  let s' := is.foldl (fun s i => s.updSpan i fun r => r.placeForced m) s
  Eff.each is (evalOverload (some a) h) (s'.updTicket h fun t => { t with claims := claimSet is, forced := true })

/-- R33: the targets of one span are tested. -/
def State.settleTargets (s : State) (i : SpanNo) : State :=
  s.updSpan i fun r => (r.settleMassTarget (s.presumes i)).settleCountTarget

/-- R32: a ticket gives back the claims it holds on the spans named, in its direction order. The targets are tested,
the overloaded conditions are evaluated, and the arbiter is notified, once for the request. -/
def releaseClaims (h : Handle) (is : List SpanNo) (s : State) : Eff :=
  match s.ticket h with
  | none => Eff.of s
  | some t =>
    let gone := (claimedSpans t).filter fun i => is.contains i
    let s := gone.foldl (fun s i => s.updSpan i fun r => r.release t.mass t.forced) s
    let s := s.updTicket h fun t => { t with claims := t.claims &&& ~~~(claimSet gone) }
    let s := gone.foldl (fun s i => s.settleTargets i) s
    (Eff.each gone (evalOverload none 0) s).emit [.arbiter]

/-- R26, R35: the presumed load of a span changes, and its overloaded condition is evaluated. -/
def setPresumed (p : SpanRec → Nat) (i : SpanNo) (s : State) : Eff :=
  evalOverload none 0 i (s.updSpan i fun r => r.presume (p r))

/-- R37, R38, R39: a mass limit is written. -/
def writeMassLimit (i : SpanNo) (v : Nat) (s : State) : Eff :=
  let s := { s with profile := { s.profile with spanLimit := upd s.profile.spanLimit i fun _ => v } }
  let r := s.spanRec i
  let taken := evalOverload none 0 i (s.updSpan i fun r => r.takeMassLimit v (s.presumes i))
  if s.part.state = .unconfigured then taken
  else if r.massLimit ≤ v then taken.emit [.arbiter]
  else if r.unforcedMass ≤ v then taken
  else evalOverload none 0 i (s.updSpan i fun r => { r with massTarget := some v })

/-- R37, R38, R39: a count limit is written. -/
def writeCountLimit (i : SpanNo) (v : Nat) (s : State) : Eff :=
  let s := { s with profile := { s.profile with spanCountLimit := upd s.profile.spanCountLimit i fun _ => v } }
  let r := s.spanRec i
  let taken := evalOverload none 0 i (s.updSpan i fun r => r.takeCountLimit v)
  if s.part.state = .unconfigured then taken
  else if r.countLimit ≤ v then taken.emit [.arbiter]
  else if r.unforcedCount ≤ v then taken
  else evalOverload none 0 i (s.updSpan i fun r => { r with countTarget := some v })

/-- R36: whether any span 1 to S is overloaded. -/
def State.anyOverloaded (s : State) : Bool := s.spansInUse.any fun i => (s.spanRec i).overloaded

end Sys2Proof.Machine
end

