-- ==== Sys2Proof/Machine/Aspects.lean ====
section
/-! DEFINITION. The aspect unit (spec/06): wanted aspects, the switch guard, orders and their answers. -/

namespace Sys2Proof.Machine

/-! ## Records -/

/-- The modes of an approach. -/
def State.mode (s : State) (a : Approach) : Mode := s.modes.get a

/-- Write the modes of an approach. -/
def State.updMode (s : State) (a : Approach) (f : Mode → Mode) : State :=
  { s with modes := s.modes.set a (f (s.modes.get a)) }

/-- R123: an approach is OPEN while its cause set is empty. -/
def State.isOpen (s : State) (a : Approach) : Bool := decide ((s.mode a).causes = 0)

/-- The places of an approach (R82). -/
def State.places (s : State) (a : Approach) : Places := s.tracking.get a

/-- Write the places of an approach. -/
def State.updPlaces (s : State) (a : Approach) (f : Places → Places) : State :=
  { s with tracking := s.tracking.set a (f (s.tracking.get a)) }

/-- A lane list (R82). -/
def State.laneList (s : State) (a : Approach) (l : LaneNo) : List Handle := (s.places a).lanes.get l

/-- The head of a lane list. -/
def State.laneHead (s : State) (a : Approach) (l : LaneNo) : Option Handle := (s.laneList a l).head?

/-- A lane record (R105). -/
def State.lane (s : State) (a : Approach) (l : LaneNo) : AspectRec Aspect := (s.aspects.get a).lanes.get l

/-- The bay signal record of an approach (R106). -/
def State.bay (s : State) (a : Approach) : AspectRec BayAspect := (s.aspects.get a).bay

/-- Write a lane record. -/
def State.setLane (s : State) (a : Approach) (l : LaneNo) (r : AspectRec Aspect) : State :=
  let x := s.aspects.get a
  { s with aspects := s.aspects.set a { x with lanes := upd x.lanes l fun _ => r } }

/-- Write a bay signal record. -/
def State.setBay (s : State) (a : Approach) (r : AspectRec BayAspect) : State :=
  { s with aspects := s.aspects.set a { s.aspects.get a with bay := r } }

/-- R105: a lane is in use while its number is no more than LANES of its approach. -/
def State.laneInUse (s : State) (a : Approach) (l : LaneNo) : Bool := decide (l.val < s.profile.lanes.get a)

/-- R106: a bay signal is in use while BAY_CAPACITY of its approach is above 0. -/
def State.bayInUse (s : State) (a : Approach) : Bool := decide (0 < s.profile.bayCapacity.get a)

/-- R105: whether a record is FAILED. -/
def OrderState.isFailed : OrderState → Bool
  | .failed => true
  | .idle => false
  | .awaiting _ _ => false

/-- The tag of an outstanding order. -/
def OrderState.tag? : OrderState → Option Byte
  | .awaiting tag _ => some tag
  | .idle => none
  | .failed => none

/-- R116: the aspect unit reports each time a record enters or leaves FAILED; the failed record count of R122
follows and GANTRY_FAULT is judged (R127). -/
def noteFailed (a : Approach) (was now : Bool) (s : State) : Eff :=
  if was = now then Eff.of s
  else
    { st := s.updMode a fun m => { m with failedCount := if now then m.failedCount + 1 else m.failedCount - 1 },
      out := [.judgeGantry a] }

/-- A lane record changes. -/
def putLane (a : Approach) (l : LaneNo) (r : AspectRec Aspect) (s : State) : Eff :=
  noteFailed a (s.lane a l).order.isFailed r.order.isFailed (s.setLane a l r)

/-- A bay signal record changes. -/
def putBay (a : Approach) (r : AspectRec BayAspect) (s : State) : Eff :=
  noteFailed a (s.bay a).order.isFailed r.order.isFailed (s.setBay a r)

/-! ## Orders (R111, R146) -/

/-- The positions of every chain, link by link. -/
def allPositions : List (LinkNo × PosNo) := allFour.flatMap fun k => allFour.map fun p => (k, p)

/-- R111: the gantry of an approach is the station whose entry has role GANTRY and that approach. -/
def State.gantryOf (s : State) (a : Approach) : Option (LinkNo × PosNo) :=
  allPositions.find? fun kp =>
    match s.entry kp.1 kp.2 with
    | .bound (.gantry b) _ => decide (b = a)
    | .bound (.weigh _ _) _ => false
    | .bound .centre _ => false
    | .unbound => false

/-- Whether the gantry of an approach is bound and LIVE (R111, R127). -/
def State.gantryLive (s : State) (a : Approach) : Bool :=
  match s.gantryOf a with
  | none => false
  | some (k, p) => (s.entry k p).isLive

/-- The tags of an approach's outstanding orders. -/
def State.orderTags (s : State) (a : Approach) : List Byte :=
  (allLanes.filterMap fun l => (s.lane a l).order.tag?) ++ (s.bay a).order.tag?.toList

/-- R146: the tags held by the orders outstanding on a link. The orders of an approach are outstanding on the link
of its gantry, since an unbinding ends them (R118, log 18). -/
def State.heldTags (s : State) (k : LinkNo) : List Byte :=
  [Approach.A, Approach.B].flatMap fun a =>
    match s.gantryOf a with
    | none => []
    | some (k', _) => if k' = k then s.orderTags a else []

/-- R146: the first value from the counter on that no outstanding order holds, wrapping from 255 to 0. -/
def freeTag (held : List Byte) : Nat → Byte → Byte
  | 0, t => t
  | n + 1, t => if held.contains t then freeTag held n (t + 1) else t

/-- R111, steps 1 to 3, and R146: an order is offered to the queue of the gantry's link. It fails without a bound and
LIVE gantry; otherwise the link takes a tag and moves its counter, and the order is queued if there is room. -/
def offerOrder (a : Approach) (kind : TxKind) (payload : List Byte) (s : State) : State × Option Byte :=
  match s.gantryOf a with
  | none => (s, none)
  | some (k, p) =>
    if (s.entry k p).isLive = false then (s, none)
    else
      let held := s.heldTags k
      let tag := freeTag held held.length (s.link k).tagCounter
      let s := s.updLink k fun r => { r with tagCounter := tag + 1 }
      if s.hasRoom k = true then (s.enqueue k (txFrame (hopOf p) kind tag payload), some tag) else (s, none)

/-- R111: what an attempt leaves of the record. -/
def AspectRec.attempted {α : Type} (r : AspectRec α) (x : α) (got : Option Byte) (due : Time) : AspectRec α :=
  match got with
  | some tag => { r with ordered := some x, order := .awaiting tag due, pending := none }
  | none => { r with order := .failed }

/-- R111, R120: an order attempt for a lane, with a handle. -/
def orderLane (a : Approach) (l : LaneNo) (x : Aspect) (h : Handle) (s : State) : Eff :=
  let r := offerOrder a .aspectOrder (one (l.val + 1) ++ one x.code ++ one h) s
  putLane a l ((r.1.lane a l).attempted x r.2 (after s.now s.profile.confirmTime)) r.1

/-- R120: the handle of a lane's head ticket, or 0 when its list is empty. -/
def State.headHandle (s : State) (a : Approach) (l : LaneNo) : Handle := (s.laneHead a l).getD 0

/-- R113, R117: an order attempt for a lane, with the head as it stands. -/
def attemptLane (a : Approach) (l : LaneNo) (x : Aspect) (s : State) : Eff := orderLane a l x (s.headHandle a l) s

/-- R121: the handle in a bay signal's release state, or 0 when it is IDLE. -/
def BaySignal.handle : BaySignal → Handle
  | .idle => 0
  | .releasing h _ => h

/-- R121: a bay signal whose order has failed has its confirmed aspect UNKNOWN. R111 calls an order that is not queued a
failed one (log 31); it says no such thing of a lane. -/
def AspectRec.doubted {α : Type} (r : AspectRec α) (got : Option Byte) : AspectRec α :=
  match got with
  | some _ => r
  | none => { r with confirmed := none }

/-- R111, R121: an order attempt for a bay signal, with a handle. -/
def orderBay (a : Approach) (x : BayAspect) (h : Handle) (s : State) : Eff :=
  let r := offerOrder a .bayOrder (one x.code ++ one h) s
  putBay a (((r.1.bay a).attempted x r.2 (after s.now s.profile.confirmTime)).doubted r.2) r.1

/-- R113, R117: an order attempt for a bay signal, with the release state's handle as it stands. -/
def attemptBay (a : Approach) (x : BayAspect) (s : State) : Eff :=
  orderBay a x (s.admission.baySignal.get a).handle s

/-- R111, R112: a lane's wanted aspect takes a value. While AWAITING the change is pending; otherwise the lane is to
attempt an order for it, which is made when the attempts of the step are (settle). -/
def wantLane (a : Approach) (l : LaneNo) (x : Aspect) (s : State) : Eff :=
  let r := s.lane a l
  if r.wanted = x then Eff.of s
  else
    match r.order with
    | .awaiting _ _ => Eff.of (s.setLane a l { r with wanted := x, pending := some x })
    | .idle => { st := s.setLane a l { r with wanted := x }, out := [.attemptLane a l x (s.headHandle a l)] }
    | .failed => { st := s.setLane a l { r with wanted := x }, out := [.attemptLane a l x (s.headHandle a l)] }

/-- R111, R112, R121: a bay signal's wanted aspect takes a value. -/
def wantBay (a : Approach) (x : BayAspect) (s : State) : Eff :=
  let r := s.bay a
  let attempt : Signal := .attemptBay a x (s.admission.baySignal.get a).handle
  if r.wanted = x then Eff.of s
  else
    match r.order with
    | .awaiting _ _ => Eff.of (s.setBay a { r with wanted := x, pending := some x })
    | .idle => { st := s.setBay a { r with wanted := x }, out := [attempt] }
    | .failed => { st := s.setBay a { r with wanted := x }, out := [attempt] }

/-- R111, R112: a lane's attempt is made. An earlier attempt of the step may have left the lane AWAITING; the aspect is
then pending. -/
def takeLaneAttempt (a : Approach) (l : LaneNo) (x : Aspect) (h : Handle) (s : State) : Eff :=
  match (s.lane a l).order with
  | .awaiting _ _ => Eff.of (s.setLane a l { s.lane a l with pending := some x })
  | .idle => orderLane a l x h s
  | .failed => orderLane a l x h s

/-- R111, R112: a bay signal's attempt is made. -/
def takeBayAttempt (a : Approach) (x : BayAspect) (h : Handle) (s : State) : Eff :=
  match (s.bay a).order with
  | .awaiting _ _ => Eff.of (s.setBay a { s.bay a with pending := some x })
  | .idle => orderBay a x h s
  | .failed => orderBay a x h s

/-! ## Derivation -/

/-- Conventions: the nominal gantry arrival of a weighed ticket. -/
def State.nominalArrival (s : State) (t : Ticket) : Time :=
  after (t.weighTime.getD 0) (travel (s.profile.distWeighGantry.get t.approach) (t.speed.getD 0))

/-- R64, R109: the nominal gantry arrival lies at least GUARD after now, by the signed difference of R41. -/
def State.meetsGuard (s : State) (t : Ticket) : Bool :=
  decide ((s.profile.guard : Int) ≤ (s.nominalArrival t - s.now).toInt)

/-- R107, R109: a lane's wanted aspect is derived again from its head ticket and the mode of its approach. A late
switch to PROCEED is refused and the head's demotion is called. -/
def deriveLane (a : Approach) (l : LaneNo) (s : State) : Eff :=
  if s.laneInUse a l = false then Eff.of s
  else if s.isOpen a = false then wantLane a l .divert s
  else
    match s.laneHead a l with
    | none => wantLane a l .rest s
    | some h =>
      match (s.ticket h).bind fun t => t.decision.map fun d => (t, d) with
      | none => Eff.of s
      | some (_, .hold) => wantLane a l .toBay s
      | some (_, .divert) => wantLane a l .divert s
      | some (t, .pass) =>
        if (s.lane a l).wanted = .proceed then Eff.of s
        else if s.meetsGuard t = true then wantLane a l .proceed s
        else { st := s, out := [.demote h] }

/-- R108: every lane in use of an approach is derived again. -/
def deriveLanes (a : Approach) (s : State) : Eff := Eff.each allLanes (deriveLane a) s

/-- R70: the bay signal aspect that a release state gives. -/
def BaySignal.wanted : BaySignal → BayAspect
  | .idle => .hold
  | .releasing _ .viaduct => .releaseViaduct
  | .releasing _ .divert => .releaseDivert

/-- R106: a bay signal's wanted aspect is derived again from its release state. -/
def deriveBay (a : Approach) (s : State) : Eff :=
  if s.bayInUse a = false then Eff.of s else wantBay a (s.admission.baySignal.get a).wanted s

/-! ## Answers, expiries, hearings, unbindings, use -/

/-- R113: a paired answer with status SHOWN. -/
def AspectRec.shown {α : Type} (r : AspectRec α) : AspectRec α :=
  { r with confirmed := r.ordered, order := .idle }

/-- R114, R115, R118: a record whose order ends in doubt. -/
def AspectRec.lost {α : Type} (r : AspectRec α) : AspectRec α :=
  { r with confirmed := none, order := .failed, pending := none }

/-- R113: a SHOWN answer for a lane; a pending aspect that differs is attempted, one that is met is discarded. -/
def shownLane (a : Approach) (l : LaneNo) (s : State) : Eff :=
  let r := (s.lane a l).shown
  match r.pending with
  | none => putLane a l r s
  | some x =>
    if r.confirmed = some x then putLane a l { r with pending := none } s
    else (putLane a l r s).bind (attemptLane a l x)

/-- R113 for a bay signal. -/
def shownBay (a : Approach) (s : State) : Eff :=
  let r := (s.bay a).shown
  match r.pending with
  | none => putBay a r s
  | some x =>
    if r.confirmed = some x then putBay a { r with pending := none } s
    else (putBay a r s).bind (attemptBay a x)

/-- R113: a SHOWN answer for a record. -/
def shownRecord (a : Approach) : RecordId → State → Eff
  | .lane l => shownLane a l
  | .bay => shownBay a

/-- R114, R115: the record's order ends in doubt. -/
def lostRecord (a : Approach) : RecordId → State → Eff
  | .lane l => fun s => putLane a l (s.lane a l).lost s
  | .bay => fun s => putBay a (s.bay a).lost s

/-- The records of an approach in the order of R111. -/
def allRecords : List RecordId := [.lane 0, .lane 1, .lane 2, .bay]

/-- A record's order state. -/
def State.orderOf (s : State) (a : Approach) : RecordId → OrderState
  | .lane l => (s.lane a l).order
  | .bay => (s.bay a).order

/-- R113: the record of an approach whose outstanding order holds a tag. -/
def State.pairedRecord (s : State) (a : Approach) (tag : Byte) : Option RecordId :=
  allRecords.find? fun r => decide ((s.orderOf a r).tag? = some tag)

/-- Whether a record is in use (R105, R106). -/
def State.recordInUse (s : State) (a : Approach) : RecordId → Bool
  | .lane l => s.laneInUse a l
  | .bay => s.bayInUse a

/-- R117: an attempt for the wanted aspect of a FAILED record in use; other records are left alone. -/
def resendRecord (a : Approach) (r : RecordId) (s : State) : Eff :=
  if s.recordInUse a r = true ∧ (s.orderOf a r).isFailed = true then
    match r with
    | .lane l => attemptLane a l (s.lane a l).wanted s
    | .bay => attemptBay a (s.bay a).wanted s
  else Eff.of s

/-- R117: at a hearing every FAILED record re-sends, save the one that the frame itself made FAILED. -/
def resendFailed (a : Approach) (save : Option RecordId) (s : State) : Eff :=
  Eff.each (allRecords.filter fun r => decide (save ≠ some r)) (resendRecord a) s

/-- R118: at the unbinding of a gantry its outstanding orders become FAILED. -/
def failOutstanding (a : Approach) (s : State) : Eff :=
  Eff.each allRecords (fun r s => if (s.orderOf a r).tag?.isSome = true then lostRecord a r s else Eff.of s) s

/-- R119: a lane going out of use, or coming into use, takes its reset values. -/
def resetLane (a : Approach) (l : LaneNo) (s : State) : Eff := putLane a l laneReset s

/-- R119 for a bay signal. -/
def resetBay (a : Approach) (s : State) : Eff := putBay a bayReset s

end Sys2Proof.Machine
end

