-- ==== Sys2Proof/Machine/Modes.lean ====
section
/-! DEFINITION. The hold queues' own operations (R60, R62) and approach mode control (spec/07): causes, OPEN and
DIVERT_ALL, the divert-all lines, and how each cause is judged. -/

namespace Sys2Proof.Machine

/-! ## Hold queues -/

/-- The hold queue of an approach (R60). -/
def State.hold (s : State) (a : Approach) : HoldQueue := s.admission.hold.get a

/-- R60: the head is the first ticket of the bay segment, or, when that is empty, of the nearing segment. -/
def HoldQueue.head (q : HoldQueue) : Option Handle := (q.bay ++ q.nearing).head?

/-- R58: the length of the hold queue. -/
def HoldQueue.size (q : HoldQueue) : Nat := q.bay.length + q.nearing.length

/-- The bay signal release state of an approach (R70). -/
def State.signal (s : State) (a : Approach) : BaySignal := s.admission.baySignal.get a

/-- Write a bay signal release state. -/
def State.setSignal (s : State) (a : Approach) (x : BaySignal) : State :=
  { s with admission := { s.admission with baySignal := s.admission.baySignal.set a x } }

/-- Write a skip count. -/
def State.setSkip (s : State) (a : Approach) (n : Nat) : State :=
  { s with admission := { s.admission with skip := s.admission.skip.set a n } }

/-- R60, R62: the hold queue of an approach changes; when its head changes, the skip count returns to 0. -/
def State.setHold (s : State) (a : Approach) (q : HoldQueue) : State :=
  let same := decide ((s.hold a).head = q.head)
  let s := { s with admission := { s.admission with hold := s.admission.hold.set a q } }
  if same = true then s else s.setSkip a 0

/-- R58: room means that the approach's hold queue is shorter than BAY_CAPACITY. -/
def State.room (s : State) (a : Approach) : Bool := decide ((s.hold a).size < s.profile.bayCapacity.get a)

/-- The weigh time of a live ticket. -/
def State.weighTimeOf (s : State) (h : Handle) : Time := ((s.ticket h).bind Ticket.weighTime).getD 0

/-- R60, R82: a ticket weighed at `w` goes after every ticket whose weigh time is earlier or equal, before the first
whose weigh time is later. -/
def insertByWeighTime (timeOf : Handle → Time) (h : Handle) (w : Time) : List Handle → List Handle
  | [] => [h]
  | g :: gs => if earlier w (timeOf g) then h :: g :: gs else g :: insertByWeighTime timeOf h w gs

/-- R60: a ticket joins the nearing segment of its approach. -/
def State.joinNearing (s : State) (a : Approach) (h : Handle) : State :=
  let q := s.hold a
  s.setHold a { q with nearing := insertByWeighTime s.weighTimeOf h (s.weighTimeOf h) q.nearing }

/-! ## Causes (R123) -/

/-- Whether an approach holds a cause. -/
def State.holds (s : State) (a : Approach) (c : Cause) : Bool := member (s.mode a).causes c.index

/-- R123: a cause joins the set of an approach that did not hold it; four of the causes raise the event of the same
name. -/
def State.putCause (s : State) (a : Approach) (c : Cause) : State :=
  let s := s.updMode a fun m => { m with causes := withMember m.causes c.index }
  match c.event with
  | none => s
  | some e => s.raise e (some a) none 0

/-- R123: a cause leaves the set. -/
def State.dropCause (s : State) (a : Approach) (c : Cause) : State :=
  s.updMode a fun m => { m with causes := withoutMember m.causes c.index }

/-- R75: what a countermand makes of a ticket of the approach. -/
def Ticket.countermanded (t : Ticket) : Ticket :=
  match t.decision with
  | some .pass =>
    ({ t with decision := some .divert, reason := some .approachRestricted }).flag .countermanded
  | some .hold => { t with decision := some .divert, reason := some .approachRestricted }
  | some .divert => t
  | none => t

/-- R75: every NEARING ticket of the approach is countermanded, and the HOLD ones leave the nearing segment. -/
def State.countermand (s : State) (a : Approach) : State :=
  let tickets := s.table.tickets.map fun t =>
    if t.approach = a ∧ t.state = TicketState.nearing then t.countermanded else t
  let s := { s with table := { s.table with tickets := tickets } }
  s.setHold a { s.hold a with nearing := [] }

/-- R131: an approach's cause set has gone from empty to non-empty. -/
def enterDivertAll (a : Approach) (s : State) : Eff :=
  deriveLanes a ((s.updMode a fun m => { m with lineAsserted := true }).countermand a)

/-- R132, R133: an approach's cause set has become empty: the line is released (but never while the part is held in
reset), the lanes are derived, and the arbiter is to run. -/
def openApproach (a : Approach) (s : State) : Eff :=
  (deriveLanes a (s.updMode a fun m => { m with lineAsserted := s.inReset })).emit [.arbiter]

/-- R123, R131: a cause is added to one approach's set. -/
def addCause (a : Approach) (c : Cause) (s : State) : Eff :=
  if s.holds a c = true then Eff.of s
  else if s.isOpen a = true then enterDivertAll a (s.putCause a c)
  else Eff.of (s.putCause a c)

/-- R123, R132: a cause is removed from one approach's set. -/
def removeCause (a : Approach) (c : Cause) (s : State) : Eff :=
  if s.holds a c = false then Eff.of s
  else
    let s := s.dropCause a c
    if s.isOpen a = true then openApproach a s else Eff.of s

/-- R134: a cause held on both approaches is added on both in the one change. -/
def addCauseBoth (c : Cause) (s : State) : Eff :=
  let add (a : Approach) (s : State) : State := if s.holds a c = true then s else s.putCause a c
  let entered (a : Approach) (s' : State) : Eff := if s.isOpen a = true then enterDivertAll a s' else Eff.of s'
  (entered .A (add .B (add .A s))).bind (entered .B)

/-- R134: a cause held on both approaches is removed from both in the one change. -/
def removeCauseBoth (c : Cause) (s : State) : Eff :=
  let s0 := (s.dropCause .A c).dropCause .B c
  let opened (a : Approach) (s' : State) : Eff :=
    if s.isOpen a = false ∧ s0.isOpen a = true then openApproach a s' else Eff.of s'
  (opened .A s0).bind (opened .B)

/-! ## How each cause is judged -/

/-- R126: WEIGH_LOSS on a refused record or a commit: the loss-until time moves to the later of its present value and
the new time, or the cause is added with the new time. -/
def weighLossSet (a : Approach) (s : State) : Eff :=
  let new := after s.now (travel (s.profile.distWeighGantry.get a) 50)
  if s.holds a .weighLoss = true then
    Eff.of (s.updMode a fun m =>
      { m with lossUntil := match m.lossUntil with
          | none => some new
          | some u => if earlier u new then some new else some u })
  else addCause a .weighLoss (s.updMode a fun m => { m with lossUntil := some new })

/-- R125: a lane is served when a bound and LIVE WEIGH entry of the approach has it in its lane set. -/
def State.served (s : State) (a : Approach) (l : LaneNo) : Bool :=
  allPositions.any fun kp =>
    match s.entry kp.1 kp.2 with
    | .bound (.weigh b lanes) (.live _) => decide (b = a) && member lanes l.val
    | .bound (.weigh _ _) .silent => false
    | .bound (.gantry _) _ => false
    | .bound .centre _ => false
    | .unbound => false

/-- R125: WEIGH_SILENT is held while any lane in use is not served. -/
def judgeWeighSilent (a : Approach) (s : State) : Eff :=
  if (allLanes.all fun l => !s.laneInUse a l || s.served a l) = true then removeCause a .weighSilent s
  else addCause a .weighSilent s

/-- R127: GANTRY_FAULT is held while the gantry is not bound and LIVE, or a record is FAILED. -/
def judgeGantryFault (a : Approach) (s : State) : Eff :=
  if s.gantryLive a = true ∧ (s.mode a).failedCount = 0 then removeCause a .gantryFault s
  else addCause a .gantryFault s

/-- R128: a line of the approach has become STUCK. -/
def oneMoreStuck (a : Approach) (s : State) : Eff :=
  { st := s.updMode a fun m => { m with stuckCount := m.stuckCount + 1 },
    out := if (s.mode a).stuckCount = 0 then [.addCause a .detectorFault] else [] }

/-- R128: the approach has one stuck line fewer. -/
def oneFewerStuck (a : Approach) (s : State) : Eff :=
  { st := s.updMode a fun m => { m with stuckCount := m.stuckCount - 1 },
    out := if (s.mode a).stuckCount ≤ 1 then [.removeCause a .detectorFault] else [] }

/-- R129: POOL_EXHAUSTED is removed where both thresholds are met. -/
def judgePool (s : State) : Eff :=
  if Config.handlesToReopen ≤ s.freeHandles ∧ Config.cellsToReopen ≤ s.table.freeCells then
    (removeCause .A .poolExhausted s).bind (removeCause .B .poolExhausted)
  else Eff.of s

/-- R130: an intruder could not be ticketed. If OVERLOAD was not held, one OVERLOAD event names the approach of the
detection; the cause is added on both. R130 gives no order: the event is raised before the cause is added, and so before
R131's effects and the orders that follow (DESIGN CHOICE, log 32). -/
def unticketedIntruder (a : Approach) (s : State) : Eff :=
  if s.holds a .overload = true then Eff.of s
  else addCauseBoth .overload (s.raise .overload (some a) none 0)

end Sys2Proof.Machine
end

