-- ==== Sys2Proof/Machine/Admission.lean ====
section
/-! DEFINITION. The admission unit (spec/04): deciding a new ticket, the release arbiter, the bay signals, demotion
and the escort's grant. -/

namespace Sys2Proof.Machine

/-! ## Deciding a new ticket -/

/-- R65: whether an escort ticket holds claims. -/
def State.escortHoldsClaims (s : State) : Bool :=
  s.table.tickets.any fun t => decide (t.origin = .escort) && decide (t.claims ≠ 0)

/-- R57, step 6: the escort slot is occupied, or an escort ticket holds claims. -/
def State.escortActive (s : State) : Bool := s.admission.escortSlot.isSome || s.escortHoldsClaims

/-- R57, steps 6, 7 and 9: HOLD if there is room, else DIVERT. -/
def holdOrDivert (room : Bool) (holdFor divertFor : Reason) : Decision × Option Reason :=
  if room = true then (.hold, some holdFor) else (.divert, some divertFor)

/-- R57: the decision and the reason of a new WEIGHED ticket; PASS has no reason. -/
def State.verdict (s : State) (t : Ticket) : Decision × Option Reason :=
  if t.confidence = some .bad then (.divert, some .lowConfidence)
  else if (t.axles.any fun x => decide (s.profile.axleLimit < x)) = true then (.divert, some .axleOver)
  else if s.profile.grossLimit < t.mass then (.divert, some .grossOver)
  else if (s.spansInUse.any fun i => decide ((s.spanRec i).massLimit < t.mass)) = true then (.divert, some .spanOver)
  else if s.isOpen t.approach = false then (.divert, some .approachRestricted)
  else if s.escortActive = true then holdOrDivert (s.room t.approach) .escortActive .escortActive
  else if (s.hold t.approach).size ≠ 0 then holdOrDivert (s.room t.approach) .spanOver .bayFull
  else if s.fits t.mass = true then (.pass, none)
  else holdOrDivert (s.room t.approach) .spanOver .bayFull

/-- The admission unit writes a decision and its reason (R3). -/
def Ticket.decided (t : Ticket) (d : Decision) (r : Option Reason) : Ticket := { t with decision := some d, reason := r }

/-- R57, R58: the ticket is evaluated and the outcome carried out. -/
def State.evaluate (s : State) (t : Ticket) : State :=
  let v := s.verdict t
  let s := s.updTicket t.handle fun t => t.decided v.1 v.2
  match v.1 with
  | .pass => s.placeUnforced t.handle t.mass
  | .hold => s.joinNearing t.approach t.handle
  | .divert => s

/-! ## Leaving the bay (R68, R72) -/

/-- R68, steps 3 to 6, and R72, steps 2 to 5: the ticket leaves the bay segment for the leaving slot, with its
RELEASE_DUE, and the bay signal's release state is RELEASING for it. The callers derive the signal's aspect (R106). -/
def State.releaseFromBay (s : State) (t : Ticket) (kind : ReleaseKind) : State :=
  let q := s.hold t.approach
  let s := s.setHold t.approach { q with bay := q.bay.filter fun g => g != t.handle }
  let s := s.updTicket t.handle fun t => { t with state := .leavingBay }
  let s := s.updPlaces t.approach fun p => { p with leaving := some t.handle }
  let s := s.setDue t.handle .releaseDue (after s.now (s.profile.bayReleaseTime * 1000))
  s.setSignal t.approach (.releasing t.handle kind)

/-- R68: release to the viaduct. -/
def State.releaseToViaduct (s : State) (t : Ticket) : State :=
  ((s.placeUnforced t.handle t.mass).updTicket t.handle fun t => t.decided .pass none).releaseFromBay t .viaduct

/-- R72: release to diversion; the bay signal's aspect follows. -/
def releaseToDiversion (t : Ticket) (s : State) : Eff :=
  let why := if s.isOpen t.approach = true then Reason.bayOverdue else Reason.approachRestricted
  deriveBay t.approach
    ((s.updTicket t.handle fun t => t.decided .divert (some why)).releaseFromBay t .divert)

/-- R72: while the bay signal is IDLE and the head of the bay segment is flagged OVERDUE, the head goes to
diversion. -/
def divertOverdueHead (a : Approach) (s : State) : Eff :=
  match (s.hold a).bay.head?.bind s.ticket with
  | none => Eff.of s
  | some t => if s.signal a = .idle ∧ t.has .overdue = true then releaseToDiversion t s else Eff.of s

/-- R73: the leaving slot has emptied: the bay signal returns to IDLE, an OVERDUE head goes to diversion, and the
arbiter runs. -/
def leavingEmpty (a : Approach) (s : State) : Eff :=
  ((deriveBay a (s.setSignal a .idle)).bind (divertOverdueHead a)).emit [.arbiter]

/-! ## The release arbiter (R63 to R67) -/

/-- R64: the ticket an approach offers in a pass. -/
def State.offers (s : State) (a : Approach) : Option Ticket :=
  if s.isOpen a = false then none
  else
    match (s.hold a).head.bind s.ticket with
    | none => none
    | some t =>
      if t.state = .bayed ∧ t.has .overdue = false ∧ s.signal a = .idle then some t
      else if t.state = .nearing ∧ s.meetsGuard t = true then some t
      else none

/-- The record of a ticket's lane (R108). -/
def Ticket.laneRecord (t : Ticket) : List (Approach × RecordId) := t.lane.toList.map fun l => (t.approach, .lane l)

/-- The report that a ticket's lane is to be derived again (R108). -/
def Ticket.laneSignal (t : Ticket) : List Signal := t.lane.toList.map fun l => .deriveLane t.approach l

/-- What a pass grants (R63): the state it leaves, and the records whose wanted aspects follow from the grant. -/
structure Grant where
  st : State
  shows : List (Approach × RecordId)
deriving DecidableEq, Repr

/-- R67: promotion. -/
def State.promote (s : State) (t : Ticket) : State :=
  let s := s.placeUnforced t.handle t.mass
  let s := s.updTicket t.handle fun t => (t.decided .pass none).flag .promoted
  let q := s.hold t.approach
  s.setHold t.approach { q with nearing := q.nearing.filter fun g => g != t.handle }

/-- R66: the turn pointer names the approach that was not granted. -/
def State.setTurn (s : State) (a : Approach) : State := { s with admission := { s.admission with turn := a } }

/-- R66 to R68: a head is granted: a BAYED one is released to the viaduct, a NEARING one promoted. -/
def grantHead (t : Ticket) (s : State) : Grant :=
  let s := s.setTurn (other t.approach)
  if t.state = .bayed then { st := s.releaseToViaduct t, shows := [(t.approach, .bay)] }
  else { st := s.promote t, shows := t.laneRecord }

/-- R78: the escort is granted. -/
def grantEscort (t : Ticket) (s : State) : State :=
  let s := s.placeUnforced t.handle t.mass
  let s := s.updTicket t.handle fun t => { t.decided .pass none with state := .runningIn }
  let s := { s with admission := { s.admission with escortSlot := none } }
  let s := s.updPlaces t.approach fun p => { p with run := p.run ++ [t.handle] }
  let due := after s.now (s.profile.escortWindow * 1000)
  (s.setDue t.handle .entryDue due).notify .escortGranted
    (one t.handle ++ one (approachCode t.approach) ++ timeBytes due)

/-- R66: a pass over the ordinary heads; none where it grants nothing, and then it changes nothing. -/
def passOverHeads (s : State) : Option Grant :=
  let f := s.admission.turn
  let tryOther (s' : State) : Option Grant :=
    match s.offers (other f) with
    | none => none
    | some t => if s.fits t.mass = true then some (grantHead t s') else none
  match s.offers f with
  | none => tryOther s
  | some t =>
    if s.fits t.mass = true then some (grantHead t s)
    else if s.profile.skipLimit ≤ s.admission.skip.get f then none
    else tryOther (s.setSkip f (s.admission.skip.get f + 1))

/-- R65: a pass of the release arbiter; none where it grants nothing, and then it changes nothing. -/
def arbiterPass (s : State) : Option Grant :=
  match s.admission.escortSlot with
  | some h =>
    match s.ticket h with
    | none => none
    | some t =>
      if s.isOpen t.approach = true ∧ s.fitsEscort t.mass = true then some { st := grantEscort t s, shows := [] }
      else none
  | none => if s.escortHoldsClaims = true then none else passOverHeads s

/-- How much waits for the arbiter: the escort in the slot and the tickets of both hold queues. Each grant takes one
of them away, so a run makes no more grants than this. -/
def State.waiting (s : State) : Nat :=
  s.admission.escortSlot.toList.length + (s.hold .A).size + (s.hold .B).size

/-- R63: passes are repeated, each on the state the one before left, until one grants nothing. The number bounds how
many grants are made. -/
def grants : Nat → State → Grant
  | 0, s => { st := s, shows := [] }
  | n + 1, s =>
    match arbiterPass s with
    | none => { st := s, shows := [] }
    | some g =>
      let rest := grants n g.st
      { st := rest.st, shows := g.shows ++ rest.shows }

/-- R106, R107: a record's wanted aspect is derived again. -/
def deriveRecord (a : Approach) : RecordId → State → Eff
  | .lane l => deriveLane a l
  | .bay => deriveBay a

/-- R111: a set of records is derived, approach A's before approach B's (log 6), those of one approach in the order
lane 1, lane 2, lane 3, bay signal. -/
def deriveRecords (rs : List (Approach × RecordId)) (s : State) : Eff :=
  Eff.each [Approach.A, .B] (fun a => Eff.each (allRecords.filter fun r => rs.contains (a, r)) (deriveRecord a)) s

/-- R63: a run of the release arbiter. The aspects that its grants change are derived when its passes are over, so that
each pass sees the queues and the account as the one before left them. -/
def arbiterRun (s : State) : Eff :=
  let g := grants s.waiting s
  deriveRecords g.shows g.st

/-! ## Arrival in the bay, BAY_LIMIT, demotion -/

/-- R61: tracking hands over a HOLD ticket that has passed the gantry at `arrival`. -/
def bayArrive (t : Ticket) (arrival : Time) (s : State) : Eff :=
  let q := s.hold t.approach
  let s := s.setHold t.approach
    { bay := q.bay ++ [t.handle], nearing := q.nearing.filter fun g => g != t.handle }
  let s := s.updTicket t.handle fun t => { t with state := .bayed }
  { st := s.setDue t.handle .bayLimit (after arrival (s.profile.maxHold * 1000)), out := [.arbiter] }

/-- R71: BAY_LIMIT is delivered. -/
def bayLimitCome (h : Handle) (s : State) : Eff :=
  match s.ticket h with
  | none => Eff.of s
  | some t => divertOverdueHead t.approach (s.updTicket h fun t => t.flag .overdue)

/-- R74: a demotion is called for. A ticket that is not NEARING with decision PASS is left alone. The ticket's lane is
derived again (R110) before the arbiter runs (log 6); their attempts are made in the order of R111 (settle). -/
def demote (h : Handle) (s : State) : Eff :=
  match s.ticket h with
  | none => Eff.of s
  | some t =>
    if t.state = .nearing ∧ t.decision = some .pass then
      let s := s.updTicket h fun t => t.flag .demoted
      let s :=
        if s.room t.approach = true then
          (s.updTicket h fun t => t.decided .hold (some .signGuard)).joinNearing t.approach h
        else s.updTicket h fun t => t.decided .divert (some .signGuard)
      let released := releaseClaims h allSpans s
      { released with out := t.laneSignal ++ released.out }
    else Eff.of s

end Sys2Proof.Machine
end

