-- ==== Sys2Proof/Machine/CrossingTable.lean ====
section
/-! DEFINITION. The crossing table (spec/01): places, counts, allocation, closing. -/

namespace Sys2Proof.Machine

/-! ## Places (R7, R82) -/

/-- The places of an approach without a ticket. -/
def Places.without (p : Places) (h : Handle) : Places :=
  { lanes := p.lanes.map fun hs => hs.filter fun g => g != h,
    leaving := if p.leaving = some h then none else p.leaving,
    run := p.run.filter fun g => g != h,
    watch := p.watch.filter fun g => g != h,
    spans := p.spans.map fun hs => hs.filter fun g => g != h }

/-- R83, the reports of a move: the lane lists whose head has changed, and the leaving slot if it has emptied. -/
def moveSignals (a : Approach) (before now : State) : List Signal :=
  ((allLanes.filter fun l => decide (before.laneHead a l ≠ now.laneHead a l)).map fun l => .deriveLane a l)
    ++ (if (before.places a).leaving.isSome = true ∧ (now.places a).leaving = none then [.leavingEmpty a] else [])

/-- R83, step 1: a ticket leaves its place in the tracking unit. -/
def unplace (t : Ticket) (s : State) : Eff :=
  let s' := s.updPlaces t.approach fun p => p.without t.handle
  { st := s', out := moveSignals t.approach s s' }

/-- R82: a new ticket joins its lane list at the place its weigh time gives it. -/
def State.joinLane (s : State) (a : Approach) (l : LaneNo) (h : Handle) : State :=
  s.updPlaces a fun p =>
    { p with lanes := upd p.lanes l fun hs => insertByWeighTime s.weighTimeOf h (s.weighTimeOf h) hs }

/-! ## Counts (R17) -/

/-- Change the crossing table. -/
def State.updTable (s : State) (f : Table → Table) : State := { s with table := f s.table }

/-- R10: what a failed ordinary allocation does beside the refusal. -/
def State.poolOverrun (s : State) (a : Approach) : State :=
  (s.raise .poolOverrun (some a) none 0).updTable fun t => { t with poolOverruns := countUp t.poolOverruns }

/-! ## Making a ticket -/

/-- R2: the assessed mass of a reported gross under a confidence and a DEGRADED_MARGIN. -/
def assessedMass (c : Option Confidence) (gross margin : Nat) : Nat :=
  if c = some .degraded then (gross * (100 + margin) + 99) / 100 else gross

/-- R1, R21: the record of a WEIGHED ticket. -/
def weighedTicket (h : Handle) (a : Approach) (l : LaneNo) (weighTime : Time) (speed : Nat) (axles : List Nat)
    (c : Confidence) (margin : Nat) : Ticket :=
  { handle := h, origin := .weighed, approach := a, lane := some l, weighTime := some weighTime, speed := some speed,
    axles := axles, gross := some axles.sum, confidence := some c, mass := assessedMass (some c) axles.sum margin,
    decision := none, reason := none, state := .nearing, claims := 0, forced := false, span := none, flags := 0 }

/-- R1, R80: the record of an ESCORT ticket. -/
def escortTicket (h : Handle) (a : Approach) (time : Time) (speed : Nat) (axles : List Nat) : Ticket :=
  { handle := h, origin := .escort, approach := a, lane := none, weighTime := some time, speed := some speed,
    axles := axles, gross := some axles.sum, confidence := none, mass := assessedMass none axles.sum 0,
    decision := none, reason := none, state := .escortWait, claims := 0, forced := false, span := none, flags := 0 }

/-- R1: the record of an INTRUDER ticket on a span. -/
def intruderTicket (h : Handle) (a : Approach) (mass : Nat) (i : SpanNo) : Ticket :=
  { handle := h, origin := .intruder, approach := a, lane := none, weighTime := none, speed := none, axles := [],
    gross := none, confidence := none, mass := mass, decision := none, reason := none, state := .crossing,
    claims := 0, forced := false, span := some i, flags := 0 }

/-! ## Closing (R13 to R16) -/

/-- R15. -/
def Ticket.summary (t : Ticket) (outcome : CloseOutcome) (now : Time) : Summary :=
  { handle := t.handle, origin := t.origin, approach := t.approach, lane := t.lane, outcome := outcome,
    decision := t.decision, reason := t.reason, flags := t.flags, weighTime := t.weighTime, closeTime := now,
    mass := t.mass }

/-- R16: a summary is offered to the close queue. -/
def State.offerSummary (s : State) (x : Summary) : State :=
  if s.table.closeQueue.length < Config.closeQueueSize then
    s.updTable fun t => { t with closeQueue := t.closeQueue ++ [x] }
  else
    (s.raise .closeLost (some x.approach) none x.handle).updTable fun t =>
      { t with closeLost := countUp t.closeLost }

/-- R27: a CROSSING ticket leaves the on-span figures of its current span. -/
def State.leaveSpan (s : State) (t : Ticket) : State :=
  match t.span with
  | none => s
  | some i => s.updSpan i fun r => r.leave t.mass

/-- R13, step 4, for the admission unit's places. -/
def State.leaveAdmission (s : State) (t : Ticket) : State :=
  let q := s.hold t.approach
  let s := s.setHold t.approach
    { bay := q.bay.filter fun g => g != t.handle, nearing := q.nearing.filter fun g => g != t.handle }
  { s with admission := { s.admission with
      escortSlot := if s.admission.escortSlot = some t.handle then none else s.admission.escortSlot } }

/-- R13, steps 2 to 6. -/
def closeSteps (t : Ticket) (outcome : CloseOutcome) (s : State) : Eff :=
  let x := t.summary outcome s.now
  let s := s.dropDue t.handle
  let released := if t.claims = 0 then Eff.of s else releaseClaims t.handle allSpans s
  ((released.map fun s => (s.leaveSpan t).leaveAdmission t).bind (unplace t)).map fun s =>
    (s.removeTicket t).offerSummary x

/-- R13: a ticket closes. What follows the closing is reported: the arbiter runs after a release, and at an escort's
closing (R63); approach mode control learns the pools, and the part state that no ticket is live. -/
def closeTicket (h : Handle) (outcome : CloseOutcome) (s : State) : Eff :=
  match s.ticket h with
  | none => Eff.of s
  | some t =>
    let e := closeSteps t outcome s
    e.emit ((if t.origin = .escort then [.arbiter] else []) ++ [.poolReport]
      ++ (if e.st.table.tickets.isEmpty = true then [.noLiveTicket] else []))

/-- R177: in DRAINING the closing that leaves no live ticket makes the part UNCONFIGURED. -/
def State.drained (s : State) : State :=
  if s.part.state = .draining ∧ s.table.tickets.isEmpty = true then
    { s with part := { s.part with state := .unconfigured } }
  else s

end Sys2Proof.Machine
end

