-- ==== Sys2Proof/Machine/Tracking.lean ====
section
/-! DEFINITION. The tracking unit (spec/05): the matching of detections and the dues of the road. -/

namespace Sys2Proof.Machine

/-! ## Strays (R84) -/

/-- R84: a detection that matches nothing. The event names the span of the point, if it has one. -/
def stray (a : Approach) (span : Option SpanNo) (s : State) : Eff :=
  Eff.of ((s.raise .strayDetection (some a) span 0).updTable fun t => { t with strays := countUp t.strays })

/-! ## Moves (R83) -/

/-- R83, steps 1 to 4: a ticket leaves its place and its due, takes its new state and its flags. The reports of the
move follow from the places (moveSignals). -/
def State.leavePlace (s : State) (t : Ticket) (new : TicketState) (fs : List TicketFlag) : State :=
  ((s.updPlaces t.approach fun p => p.without t.handle).dropDue t.handle).updTicket t.handle fun t =>
    { t with state := new }.flagAll fs

/-- R44: ENTRY_DUE and WATCH_END from the gantry. -/
def State.dueFromGantry (s : State) (t : Ticket) : Time :=
  after (t.weighTime.getD 0) (s.stretch (travel
    (s.profile.distWeighGantry.get t.approach + s.profile.distGantryEntry.get t.approach) (t.speed.getD 0)))

/-- R44: ENTRY_DUE and WATCH_END from the bay. -/
def State.dueFromBay (s : State) (a : Approach) (bayExit : Time) : Time :=
  after bayExit (s.stretch (travel (s.profile.distBayEntry.get a) s.profile.baySpeed))

/-- R44: SPAN_DUE. -/
def State.spanDueAt (s : State) (i : SpanNo) (entry : Time) : Time :=
  after entry (travel (s.profile.spanLength.get i) s.profile.crawlSpeed)

/-- A ticket becomes RUNNING_IN at the tail of the run list (R86, R90). -/
def State.runIn (s : State) (t : Ticket) (fs : List TicketFlag) (due : Time) : State :=
  ((s.leavePlace t .runningIn fs).updPlaces t.approach fun p => { p with run := p.run ++ [t.handle] }).setDue
    t.handle .entryDue due

/-- A ticket becomes WATCHED at the tail of the watch list (R86, R87, R90). -/
def State.watchIt (s : State) (t : Ticket) (fs : List TicketFlag) (due : Time) : State :=
  ((s.leavePlace t .watched fs).updPlaces t.approach fun p => { p with watch := p.watch ++ [t.handle] }).setDue
    t.handle .watchEnd due

/-- The reports of a move (R83). -/
def reportMove (a : Approach) (before now : State) : Eff := { st := now, out := moveSignals a before now }

/-! ## The gantry -/

/-- R82: the earliest weigh time of a list; of equal weigh times the first in the list. -/
def earliest (timeOf : Handle → Time) : List Handle → Option Handle
  | [] => none
  | h :: hs =>
    match earliest timeOf hs with
    | none => some h
    | some g => if earlier (timeOf g) (timeOf h) = true then some g else some h

/-- R82: the oldest NEARING ticket of an approach across its lanes. -/
def State.oldestNearing (s : State) (a : Approach) : Option Handle :=
  earliest s.weighTimeOf (allLanes.filterMap fun l => s.laneHead a l)

/-- R86, R87, R88: a NEARING ticket passes the gantry at `arrival`, with lane `l` consulted. At a bay arrival the lane is
derived before the arbiter runs (log 6). -/
def passGantry (t : Ticket) (l : LaneNo) (arrival : Time) (fs : List TicketFlag) (s : State) : Eff :=
  match t.decision with
  | some .hold =>
    let moved := bayArrive t arrival (s.leavePlace t .bayed fs)
    { moved with out := moveSignals t.approach s moved.st ++ moved.out }
  | some .pass =>
    if (s.lane t.approach l).confirmed = some .proceed then
      reportMove t.approach s (s.runIn t fs (s.dueFromGantry t))
    else
      reportMove t.approach s
        ((s.watchIt t (fs ++ [.countermanded]) (s.dueFromGantry t)).updTicket t.handle fun t =>
          t.decided .divert (some .signGuard))
  | some .divert => reportMove t.approach s (s.watchIt t fs (s.dueFromGantry t))
  | none => reportMove t.approach s (s.watchIt t fs (s.dueFromGantry t))

/-- R85: a gantry detection. -/
def gantryDetection (a : Approach) (l : LaneNo) (captured : Time) (s : State) : Eff :=
  match (s.laneHead a l).bind s.ticket with
  | some t => passGantry t l captured [] s
  | none =>
    match (s.oldestNearing a).bind s.ticket with
    | some t => passGantry t l captured [.crossLane] s
    | none => stray a none s

/-- R88: GANTRY_DUE is delivered. -/
def gantryDueCome (d : Deadline) (s : State) : Eff :=
  match s.ticket d.handle with
  | none => Eff.of s
  | some t => passGantry t (t.lane.getD 0) d.due [.gantryPresumed] s

/-! ## The bay exit -/

/-- R90, R91: the ticket leaves the bay at `bayExit`. -/
def exitBay (t : Ticket) (bayExit : Time) (fs : List TicketFlag) (s : State) : Eff :=
  if t.decision = some .pass then reportMove t.approach s (s.runIn t fs (s.dueFromBay t.approach bayExit))
  else reportMove t.approach s (s.watchIt t fs (s.dueFromBay t.approach bayExit))

/-- R90: a bay exit detection. -/
def bayExitDetection (a : Approach) (captured : Time) (s : State) : Eff :=
  match (s.places a).leaving.bind s.ticket with
  | none => stray a none s
  | some t => exitBay t captured [] s

/-- R91: RELEASE_DUE is delivered. -/
def releaseDueCome (d : Deadline) (s : State) : Eff :=
  match s.ticket d.handle with
  | none => Eff.of s
  | some t => exitBay t d.due [.exitPresumed] s

/-! ## The span entry -/

/-- The span lists of an approach with a ticket at the tail of one. -/
def Places.onSpan (p : Places) (h : Handle) (i : SpanNo) : Places :=
  { p with spans := upd p.spans i fun hs => hs ++ [h] }

/-- R93: a ticket becomes CROSSING on a span at `entry`. -/
def State.enterSpan (s : State) (t : Ticket) (i : SpanNo) (fs : List TicketFlag) (entry : Time) : State :=
  let s := (s.leavePlace t .crossing fs).updTicket t.handle fun t => { t with span := some i }
  let s := s.updPlaces t.approach fun p => p.onSpan t.handle i
  (s.setDue t.handle .spanDue (s.spanDueAt i entry)).updSpan i fun r => r.enter t.mass

/-- R93: a ticket enters the viaduct. -/
def enterViaduct (t : Ticket) (fs : List TicketFlag) (entry : Time) (s : State) : Eff :=
  reportMove t.approach s (s.enterSpan t (s.firstSpan t.approach) fs entry)

/-- R94: a WATCHED ticket enters as a violation. -/
def enterAsViolation (t : Ticket) (entry : Time) (s : State) : Eff :=
  ((enterViaduct t [.violation] entry s).bind (placeForced t.handle t.approach t.mass (s.route t.approach))).map
    fun s' => (s'.raise .violation (some t.approach) (some (s.firstSpan t.approach)) t.handle).updTable
      fun t => { t with violations := countUp t.violations }

/-- R95, R100: the INTRUSION event and its count. -/
def State.intrusion (s : State) (a : Approach) (i : SpanNo) (h : Handle) : State :=
  (s.raise .intrusion (some a) (some i) h).updTable fun t => { t with intrusions := countUp t.intrusions }

/-- R95, R100: an intruder is made on a span, or, when no handle is free (R11), OVERLOAD is signalled. -/
def intruder (a : Approach) (i : SpanNo) (captured : Time) (s : State) : Eff :=
  match s.lowestFree with
  | none => { st := s.intrusion a i 0, out := [.unticketedIntruder a] }
  | some h =>
    let t := intruderTicket h a s.profile.intruderMass i
    let entered := (s.addTicket t).enterSpan t i [] captured
    (placeForced h a t.mass (s.spansFrom a i) entered).map fun s => s.intrusion a i h

/-- R92, step 3: the NEARING ticket with decision PASS of the earliest weigh time across the lane lists. -/
def State.nearingPass (s : State) (a : Approach) : Option Handle :=
  earliest s.weighTimeOf ((allLanes.flatMap fun l => s.laneList a l).filter fun h =>
    decide ((s.ticket h).bind Ticket.decision = some .pass))

/-- R92, step 2: the leaving ticket, if its decision is PASS. -/
def State.leavingPass (s : State) (a : Approach) : Option Handle :=
  (s.places a).leaving.filter fun h => decide ((s.ticket h).bind Ticket.decision = some .pass)

/-- R92, step 4: a WATCHED ticket enters; with the claims it kept if COUNTERMANDED, otherwise as a violation. -/
def enterWatched (t : Ticket) (entry : Time) (s : State) : Eff :=
  if t.has .countermanded = true then enterViaduct t [] entry s else enterAsViolation t entry s

/-- R92: an entry detection. -/
def entryDetection (a : Approach) (captured : Time) (s : State) : Eff :=
  match (s.places a).run.head?.bind s.ticket with
  | some t => enterViaduct t [] captured s
  | none =>
    match (s.leavingPass a).bind s.ticket with
    | some t => enterViaduct t [.exitPresumed] captured s
    | none =>
      match (s.nearingPass a).bind s.ticket with
      | some t => enterViaduct t [.gantryPresumed] captured s
      | none =>
        match (s.places a).watch.head?.bind s.ticket with
        | some t => enterWatched t captured s
        | none => intruder a (s.firstSpan a) captured s

/-- R96: ENTRY_DUE is delivered. -/
def entryDueCome (d : Deadline) (s : State) : Eff :=
  match s.ticket d.handle with
  | none => Eff.of s
  | some t =>
    if t.origin = .escort ∨ s.holds t.approach .detectorFault = false then closeTicket t.handle .lapsed s
    else enterViaduct t [.entryPresumed] d.due s

/-! ## On the viaduct -/

/-- R98, R101: the oldest ticket of the first non-empty list of a search. -/
def State.firstOn (s : State) (a : Approach) (is : List SpanNo) : Option Handle :=
  (is.flatMap fun i => (s.places a).spans.get i).head?

/-- R98: the span before boundary k + 1 in an approach's direction. -/
def spanBeforeBoundary (a : Approach) (k : Fin 3) : SpanNo :=
  match a with
  | .A => k.castSucc
  | .B => k.succ

/-- R98: the span after boundary k + 1 in an approach's direction. -/
def spanAfterBoundary (a : Approach) (k : Fin 3) : SpanNo :=
  match a with
  | .A => k.succ
  | .B => k.castSucc

/-- R99: a CROSSING ticket moves to a span. -/
def passBoundary (t : Ticket) (i : SpanNo) (captured : Time) (s : State) : Eff :=
  let s := s.updPlaces t.approach fun p => (p.without t.handle).onSpan t.handle i
  let s := s.updTicket t.handle fun t => { t with span := some i }
  let s := if t.has .stalled = true then s else s.setDue t.handle .spanDue (s.spanDueAt i captured)
  let s := (s.leaveSpan t).updSpan i fun r => r.enter t.mass
  releaseClaims t.handle (s.spansBefore t.approach i) s

/-- R98, R100: a boundary detection. -/
def boundaryDetection (a : Approach) (k : Fin 3) (captured : Time) (s : State) : Eff :=
  let i := spanAfterBoundary a k
  match (s.firstOn a (s.spansBackFrom a (spanBeforeBoundary a k))).bind s.ticket with
  | some t => passBoundary t i captured s
  | none => if s.part.state = .clearing then stray a (some i) s else intruder a i captured s

/-- R101: the outcome at the exit. -/
def Ticket.exitOutcome (t : Ticket) : CloseOutcome :=
  if t.has .violation = true then .violated else if t.origin = .intruder then .intruded else .crossed

/-- R101: an exit detection. -/
def exitDetection (a : Approach) (s : State) : Eff :=
  match (s.firstOn a (s.spansBackFrom a (s.lastSpan a))).bind s.ticket with
  | some t => closeTicket t.handle t.exitOutcome s
  | none => stray a (some (s.lastSpan a)) s

/-- R102: SPAN_DUE is delivered. -/
def spanDueCome (d : Deadline) (s : State) : Eff :=
  match s.ticket d.handle with
  | none => Eff.of s
  | some t =>
    Eff.of ((s.updTicket t.handle fun t => t.flag .stalled).raise .stall (some t.approach) t.span t.handle)

/-- R84: a detection is matched. -/
def deliver (pt : Point) (captured : Time) (s : State) : Eff :=
  match pt.kind with
  | .gantry l => gantryDetection pt.approach l captured s
  | .bayExit => bayExitDetection pt.approach captured s
  | .entry => entryDetection pt.approach captured s
  | .boundary k => boundaryDetection pt.approach k captured s
  | .exit => exitDetection pt.approach s

end Sys2Proof.Machine
end

