-- ==== Sys2Proof/Machine/Signals.lean ====
section
/-! DEFINITION. The reports between blocks are taken: each in the order it was made, and the reports that follow from
one before the next one (log 4); the order attempts among them last, in the order of R111 (log 6). -/

namespace Sys2Proof.Machine

/-- What the receiving block does with a report. -/
def act : Signal → State → Eff
  | .addCause a c => addCause a c
  | .removeCause a c => removeCause a c
  | .leftRunning => addCauseBoth .partState
  | .enteredRunning => removeCauseBoth .partState
  | .overloaded => addCauseBoth .overload
  | .unticketedIntruder a => unticketedIntruder a
  | .overloadAcknowledged => removeCauseBoth .overload
  | .weighLoss a => weighLossSet a
  | .judgeGantry a => judgeGantryFault a
  | .judgeWeigh a => judgeWeighSilent a
  | .deriveLane a l => deriveLane a l
  | .attemptLane a l x h => takeLaneAttempt a l x h
  | .attemptBay a x h => takeBayAttempt a x h
  | .demote h => demote h
  | .arbiter => arbiterRun
  | .leavingEmpty a => leavingEmpty a
  | .poolReport => judgePool
  | .noLiveTicket => fun s => Eff.of s.drained

/-- R111: the record that a report has make an order attempt. -/
def Signal.attempts : Signal → Option (Approach × RecordId)
  | .attemptLane a l _ _ => some (a, .lane l)
  | .attemptBay a _ _ => some (a, .bay)
  | .addCause _ _ => none
  | .removeCause _ _ => none
  | .leftRunning => none
  | .enteredRunning => none
  | .overloaded => none
  | .unticketedIntruder _ => none
  | .overloadAcknowledged => none
  | .weighLoss _ => none
  | .judgeGantry _ => none
  | .judgeWeigh _ => none
  | .deriveLane _ _ => none
  | .demote _ => none
  | .arbiter => none
  | .leavingEmpty _ => none
  | .poolReport => none
  | .noLiveTicket => none

/-- A report is taken, and then, in order, those that follow from it; the order attempts among them are left to be made.
The number bounds how deep reports follow from one another (Config.cascadeDepth, log 5). -/
def handle : Nat → Signal → State → Eff
  | 0, _, s => Eff.of s
  | n + 1, g, s =>
    if g.attempts = none then Eff.each (act g s).out (fun g s => handle n g s) (act g s).st else { st := s, out := [g] }

/-- The reports of a transition are taken in the order they were made; what is left are order attempts. -/
def relay (e : Eff) : Eff := Eff.each e.out (handle Config.cascadeDepth) e.st

/-- R111: order attempts in the order they are made in: approach A's before approach B's (log 6), those of one approach
in the order lane 1, lane 2, lane 3, bay signal, those of one record as they came. -/
def inAttemptOrder (gs : List Signal) : List Signal :=
  [Approach.A, .B].flatMap fun a => allRecords.flatMap fun r => gs.filter fun g => decide (g.attempts = some (a, r))

/-- The reports of a transition are taken, then the order attempts that they left are made, and so again with what
follows from these. The number bounds how often (Config.cascadeDepth, log 5). -/
def settleWithin : Nat → Eff → State
  | 0, e => e.st
  | n + 1, e =>
    let left := relay e
    if left.out = [] then left.st else settleWithin n (Eff.each (inAttemptOrder left.out) act left.st)

/-- All that follows from a transition is taken. -/
def settle (e : Eff) : State := settleWithin Config.cascadeDepth e

end Sys2Proof.Machine
end

