-- ==== Sys2Proof/Machine/Lines.lean ====
section
/-! DEFINITION. The detector lines (spec/03, R46 to R51) and the meanings of their rows. -/

namespace Sys2Proof.Machine

/-- The answer of a meaning: while the part is held in reset a command has no effect (R179, log 12). -/
def awake (s : State) (f : State → State) : Host.Outcome State Fault Refusal :=
  .next (if s.inReset = true then s else f s)

/-- A line's record. -/
def State.line (s : State) (d : LineNo) : LineRec := s.lines.get d

/-- Change a line's record. -/
def State.updLine (s : State) (d : LineNo) (f : LineRec → LineRec) : State := { s with lines := upd s.lines d f }

/-- R47: the level that shows presence. -/
def Polarity.level : Polarity → Bool
  | .high => true
  | .low => false

/-- R47: a line shows presence while its level equals its polarity. -/
def LineRec.shows (r : LineRec) : Bool := decide (r.level = r.polarity.level)

/-- R48: a line returns to ABSENT and its dues are discarded. -/
def LineRec.absent (r : LineRec) : LineRec := { r with state := .absent, confirmDue := none, stuckDue := none }

/-- R48, leading edge: ABSENT becomes CONFIRMING. -/
def LineRec.lead (r : LineRec) (now : Time) (minPresence stuckLimit : Nat) : LineRec :=
  if r.state = .absent then
    { r with state := .confirming, lastCapture := now, confirmDue := some (after now minPresence),
             stuckDue := some (after now (stuckLimit * 1000)) }
  else r

/-- R48: the line takes a leading edge. -/
def State.takeLeading (s : State) (d : LineNo) : State :=
  s.updLine d fun r => r.lead s.now s.profile.minPresence s.profile.stuckLimit

/-- R50: a report on the stuck lines of the approach of a line's point; an UNUSED line reports to none. -/
def reportStuck (judge : Approach → State → Eff) (pt : Option Point) (s : State) : Eff :=
  match pt with
  | none => Eff.of s
  | some pt => judge pt.approach s

/-- R48, R51: the line takes a trailing edge. -/
def takeTrailing (d : LineNo) (s : State) : Eff :=
  let r := s.line d
  let gone := s.updLine d LineRec.absent
  match r.state with
  | .absent => Eff.of s
  | .confirming => Eff.of (gone.updLine d fun r => { r with noise := countUp r.noise })
  | .present => Eff.of gone
  | .stuck => reportStuck oneFewerStuck r.point gone

/-- R49: the detection of a line that has become PRESENT is delivered, unless the part is in UNCONFIGURED or the line
UNUSED. -/
def deliverLine (r : LineRec) (s : State) : Eff :=
  if s.part.state = .unconfigured then Eff.of s
  else
    match r.point with
    | none => Eff.of s
    | some pt => deliver pt r.lastCapture s

/-- R48: the confirm due of a CONFIRMING line has come. -/
def State.lineConfirms (s : State) (d : LineNo) : Bool :=
  decide ((s.line d).state = .confirming) && ((s.line d).confirmDue.any fun due => hasCome s.now due)

/-- R48: the stuck due of a PRESENT line has come. -/
def State.lineSticks (s : State) (d : LineNo) : Bool :=
  decide ((s.line d).state = .present) && ((s.line d).stuckDue.any fun due => hasCome s.now due)

/-- The level on a line's pin becomes the one that shows presence, or the other, under the polarity of the line's
record. While the part is held in reset that is the polarity from before the reset; RESET_END then reads the level
under HIGH (DESIGN CHOICE, log 28). -/
def State.setLevel (s : State) (d : LineNo) (presence : Bool) : State :=
  s.updLine d fun r => { r with level := if presence then r.polarity.level else !r.polarity.level }

/-- LEADING_EDGE (R47, R48). The pin's level is tracked in reset too (log 11, log 12, log 28). -/
def execLeadingEdge (d : LineNo) (s : State) : Host.Outcome State Fault Refusal :=
  awake (s.setLevel d true) fun s => s.takeLeading d

/-- TRAILING_EDGE (R47, R48, R50, R51). -/
def execTrailingEdge (d : LineNo) (s : State) : Host.Outcome State Fault Refusal :=
  awake (s.setLevel d false) fun s => settle (takeTrailing d s)

/-- LINE_CONFIRM_DUE (R48, R49). -/
def execLineConfirmDue (d : LineNo) (s : State) : Host.Outcome State Fault Refusal :=
  awake s fun s =>
    if s.lineConfirms d = true then
      settle (deliverLine (s.line d) (s.updLine d fun r => { r with state := .present }))
    else s

/-- STUCK_DUE (R48, R50). -/
def execStuckDue (d : LineNo) (s : State) : Host.Outcome State Fault Refusal :=
  awake s fun s =>
    if s.lineSticks d = true then
      settle (reportStuck oneMoreStuck (s.line d).point (s.updLine d fun r => { r with state := .stuck }))
    else s

/-! ## Writes to LINE_ASSIGN and LINE_POLARITY (R47) -/

/-- R47: the report of R50 moves with a STUCK line from one approach to another (log 17). -/
def moveStuck (old new : Option Point) (s : State) : Eff :=
  if old.map Point.approach = new.map Point.approach then Eff.of s
  else (reportStuck oneFewerStuck old s).bind (reportStuck oneMoreStuck new)

/-- R47: a write to LINE_ASSIGN. -/
def assignLine (d : LineNo) (pt : Option Point) (s : State) : Eff :=
  let s' := s.updLine d fun r => { r with point := pt }
  if (s.line d).state = .stuck then moveStuck (s.line d).point pt s' else Eff.of s'

/-- R47: a write to LINE_POLARITY that changes the polarity makes an edge. -/
def setPolarity (d : LineNo) (x : Polarity) (s : State) : Eff :=
  let s := s.updLine d fun r => { r with polarity := x }
  if (s.line d).shows = true then Eff.of (s.takeLeading d) else takeTrailing d s

end Sys2Proof.Machine
end

