-- ==== Sys2Proof/Machine/Frames.lean ====
section
/-! DEFINITION. What a link and the directory make of a frame (spec/08, spec/09): the checks, the hearing, the
permissions, bindings; and the meanings of the rows about links. -/

namespace Sys2Proof.Machine

/-! ## The end of a reception -/

/-- R139: the frame has ended and the link returns to LISTENING. -/
def LinkRec.endReception (r : LinkRec) : LinkRec := { r with lineState := .listening, rxBytes := [], rxFailed := none }

/-- R140: the count of a failed check rises. -/
def LinkRec.countCheck (r : LinkRec) : RxCheck → LinkRec
  | .framing => { r with framing := countUp r.framing }
  | .noise => { r with noise := countUp r.noise }
  | .length => { r with length := countUp r.length }
  | .check => { r with check := countUp r.check }
  | .strayHop => { r with strayHop := countUp r.strayHop }

/-- R140: a frame that fails a check is counted, discarded and reported. -/
def State.failFrame (s : State) (k : LinkNo) (c : RxCheck) : State :=
  (s.updLink k fun r => r.countCheck c).raise .linkError none none 0

/-- The checks of R140 that a frame, with its bytes sound, can fail. -/
def frameCheck (f : Frame) (chain : Nat) : Option RxCheck :=
  if Config.payloadSize < f.payload.length then some .length
  else if f.hop.toNat = 0 ∨ chain < f.hop.toNat then some .strayHop
  else none

/-- Whether a link takes no received characters: it is SENDING (R138, log 13). -/
def State.deaf (s : State) (k : LinkNo) : Bool := decide ((s.link k).lineState = .sending)

/-! ## Hearings (R152, R117) -/

/-- R152, step 2: the entry becomes LIVE, with its silence due renewed. -/
def State.renewed (s : State) (role : Role) : Entry := .bound role (.live (after s.now s.profile.silenceLimit))

/-- R152, step 2: the change from SILENT is reported. -/
def reportLive (role : Role) (was : Liveness) : List Signal :=
  match role, was with
  | .weigh a _, .silent => [.judgeWeigh a]
  | .gantry a, .silent => [.judgeGantry a]
  | .centre, .silent => []
  | _, .live _ => []

/-- R152, steps 2 and 3: a hearing of the entry of a position. `save` is the record that the frame itself made
FAILED (R117). -/
def State.hear (s : State) (k : LinkNo) (p : PosNo) (save : Option RecordId) : State :=
  match s.entry k p with
  | .unbound => s
  | .bound role was =>
    let s := settle { st := s.setEntry k p (s.renewed role), out := reportLive role was }
    match role with
    | .gantry a => settle (resendFailed a save s)
    | .weigh _ _ => s
    | .centre => s

/-- R139 to R141, R151, R152: a frame comes on a link. A valid one is dealt with and is then a hearing. -/
def State.receive (s : State) (k : LinkNo) (f : Frame) (save : PosNo → Option RecordId)
    (deal : PosNo → State → State) : State :=
  if s.deaf k = true then s
  else
    let s := s.updLink k LinkRec.endReception
    match frameCheck f (s.link k).chain with
    | some c => s.failFrame k c
    | none =>
      match positionOf f.hop with
      | none => s
      | some p => (deal p s).hear k p (save p)

/-! ## Permissions and answers (R151) -/

/-- The answer of a status alone. -/
def State.answerStatus (s : State) (k : LinkNo) (f : Frame) (st : Status) : State := s.answer k f st.byte

/-- R154: the centre is LIVE again before the answer to its request is queued (log 8). -/
def State.heardCentre (s : State) (k : LinkNo) (f : Frame) : State :=
  match positionOf f.hop with
  | none => s
  | some p => s.setEntry k p (s.renewed .centre)

/-- The answer to a request of the centre. -/
def State.reply (s : State) (k : LinkNo) (f : Frame) (payload : List Byte) : State :=
  (s.heardCentre k f).answer k f payload

/-- The answer of a status alone to the centre. -/
def State.replyStatus (s : State) (k : LinkNo) (f : Frame) (st : Status) : State := s.reply k f st.byte

/-- R151: a request of codes 0x40 to 0x48 and 0x50 to 0x5C is taken from the centre; any other sender is answered
NOT_PERMITTED. -/
def centreRequest (k : LinkNo) (f : Frame) (take : State → State) (s : State) : Host.Outcome State Fault Refusal :=
  awake s fun s => s.receive k f (fun _ => none) fun p s =>
    match s.entry k p with
    | .bound .centre _ => take s
    | .bound (.weigh _ _) _ => s.answerStatus k f .notPermitted
    | .bound (.gantry _) _ => s.answerStatus k f .notPermitted
    | .unbound => s.answerStatus k f .notPermitted

/-! ## Bindings (R155 to R157) -/

/-- The positions named by two bytes of a payload: link and position (R155, R157, R163). -/
def positionAt (p : List Byte) : Option (LinkNo × PosNo) :=
  match below 4 (byteAt p 0), countedFrom1 4 (byteAt p 1) with
  | some k, some q => some (k, q)
  | _, _ => none

/-- R157, steps 1 to 3: the entry of a position is unbound, with every effect of the unbinding. -/
def State.unbind (s : State) (k : LinkNo) (p : PosNo) : State :=
  let gone := s.setEntry k p .unbound
  match s.entry k p with
  | .unbound => s
  | .bound (.weigh a _) _ => settle { st := gone, out := [.judgeWeigh a] }
  | .bound (.gantry a) _ => settle ((failOutstanding a gone).emit [.judgeGantry a])
  | .bound .centre _ => gone

/-- R155, step 5, and R156: the lanes of a bound WEIGH entry of an approach. -/
def Entry.weighLanes (e : Entry) (a : Approach) : BitVec 3 :=
  match e with
  | .bound (.weigh b lanes) _ => if b = a then lanes else 0
  | .bound (.gantry _) _ => 0
  | .bound .centre _ => 0
  | .unbound => 0

/-- Whether an entry is the gantry of an approach. -/
def Entry.isGantry (e : Entry) (a : Approach) : Bool :=
  match e with
  | .bound (.gantry b) _ => decide (b = a)
  | .bound (.weigh _ _) _ => false
  | .bound .centre _ => false
  | .unbound => false

/-- R155, step 5: the binding of a role clashes with another entry. -/
def State.conflicts (s : State) (k : LinkNo) (p : PosNo) (role : Role) : Bool :=
  (allPositions.filter fun kp => decide (kp ≠ (k, p))).any fun kp =>
    match role with
    | .weigh a lanes => decide ((s.entry kp.1 kp.2).weighLanes a &&& lanes ≠ 0)
    | .gantry a => (s.entry kp.1 kp.2).isGantry a
    | .centre => false

/-- R155: the role that the fields from the third on name; none when a value is refused. -/
def roleAt (p : List Byte) : Option Role :=
  match approachOf (byteAt p 3) with
  | none => none
  | some a =>
    if 1 < byteAt p 4 ∨ 1 < byteAt p 5 ∨ 1 < byteAt p 6 then none
    else
      let lanes := BitVec.ofNat 3 (byteAt p 4 + 2 * byteAt p 5 + 4 * byteAt p 6)
      match byteAt p 2 with
      | 1 => if lanes = 0 then none else some (.weigh a lanes)
      | 2 => if lanes = 0 then some (.gantry a) else none
      | 3 => some .centre
      | _ => none

/-- R155: the checks of a BIND STATION. -/
def State.checkBind (s : State) (p : List Byte) : Except Status (LinkNo × PosNo × Role) :=
  if p.length ≠ 7 then .error .badValue
  else
    match positionAt p, roleAt p with
    | some (k, q), some role =>
      if role = .centre then .error .notPermitted
      else if k = s.centreLink ∧ q = 0 then .error .notPermitted
      else if (s.link k).chain < q.val + 1 then .error .badValue
      else if s.conflicts k q role = true then .error .conflict
      else .ok (k, q, role)
    | _, _ => .error .badValue

/-- R156, step 3. -/
def judgeRole : Role → List Signal
  | .weigh a _ => [.judgeWeigh a]
  | .gantry a => [.judgeGantry a]
  | .centre => []

/-- R156, steps 1 to 3. -/
def State.bindStation (s : State) (k : LinkNo) (p : PosNo) (role : Role) : State :=
  settle { st := (s.unbind k p).setEntry k p (.bound role .silent), out := judgeRole role }

/-! ## The meanings of the rows about links -/

/-- RECEIVE_CHECK_FAILED (R139, R140). What was received is checked here; a reception that fails no check only ends
(log 20). -/
def execReceiveCheckFailed (k : LinkNo) (r : Reception) (s : State) : Host.Outcome State Fault Refusal :=
  awake s fun s =>
    if s.deaf k = true then s
    else
      let s := s.updLink k LinkRec.endReception
      match firstFailedCheck (s.link k).chain (r.bytes.take Config.receivedBytes) r.framing r.noise
          (decide (Config.receivedBytes < r.bytes.length)) with
      | some c => s.failFrame k c
      | none => s

/-- TRANSMIT_START (R138). -/
def execTransmitStart (k : LinkNo) (s : State) : Host.Outcome State Fault Refusal :=
  awake s fun s =>
    if (s.link k).lineState = .listening ∧ (s.link k).queue ≠ [] then
      s.updLink k fun r => { r with lineState := .sending }
    else s

/-- R151, R158: the sender's entry is bound. -/
def Entry.isBound : Entry → Bool
  | .bound _ _ => true
  | .unbound => false

/-- KEEPALIVE (R158). -/
def execKeepalive (k : LinkNo) (f : Frame) (s : State) : Host.Outcome State Fault Refusal :=
  awake s fun s => s.receive k f (fun _ => none) fun p s =>
    if (s.entry k p).isBound = false then s.answerStatus k f .notPermitted
    else if f.payload = [] then s.answerStatus k f .done
    else s.answerStatus k f .badValue

/-- R142, R157: a CHAIN SET that is taken. A shortened chain unbinds the entries above its new length from the lowest
position up, and settles what follows from one unbinding before the next (DESIGN CHOICE, log 30). -/
def State.setChain (s : State) (k : LinkNo) (n : Nat) : State :=
  let old := (s.link k).chain
  let s := s.updLink k fun r => { r with chain := n }
  if n < old then (allFour.filter fun q => decide (n < q.val + 1)).foldl (fun s q => s.unbind k q) s else s

/-- CHAIN_SET (R142). -/
def execChainSet (k : LinkNo) (f : Frame) (s : State) : Host.Outcome State Fault Refusal :=
  awake s fun s => s.receive k f (fun _ => none) fun p s =>
    let n := byteAt f.payload 0
    if f.payload.length = 1 ∧ 1 ≤ n ∧ n ≤ 4 ∧ p.val + 1 ≤ n then s.setChain k n else s

/-- UNKNOWN_KIND (R151). -/
def execUnknownKind (k : LinkNo) (_code : Byte) (f : Frame) (s : State) : Host.Outcome State Fault Refusal :=
  awake s fun s => s.receive k f (fun _ => none) fun _ s => s.answerStatus k f .unknownKind

/-- The approach whose gantry an entry is. -/
def Entry.gantryApproach : Entry → Option Approach
  | .bound (.gantry a) _ => some a
  | .bound (.weigh _ _) _ => none
  | .bound .centre _ => none
  | .unbound => none

/-- R113, R147: an answer's status is SHOWN. -/
def isShown (f : Frame) : Bool := decide (f.payload.head? = some 10#8)

/-- R113, R114, R147: an ANSWER of a gantry is paired, or is a stray answer. -/
def State.takeAnswer (s : State) (k : LinkNo) (f : Frame) (a : Approach) : State :=
  match s.pairedRecord a f.tag with
  | some r => settle (if isShown f = true then shownRecord a r s else lostRecord a r s)
  | none =>
    (s.updLink k fun r => { r with strayAnswer := countUp r.strayAnswer }).raise .linkError none none 0

/-- R117: the record that an ANSWER itself makes FAILED. -/
def State.failedByAnswer (s : State) (k : LinkNo) (f : Frame) (p : PosNo) : Option RecordId :=
  if isShown f = true then none else (s.entry k p).gantryApproach.bind fun a => s.pairedRecord a f.tag

/-- ANSWER (R113, R114, R147, R151). -/
def execAnswer (k : LinkNo) (f : Frame) (s : State) : Host.Outcome State Fault Refusal :=
  awake s fun s => s.receive k f (fun p => s.failedByAnswer k f p) fun p s =>
    match (s.entry k p).gantryApproach with
    | some a => s.takeAnswer k f a
    | none => s

/-- BIND_STATION (R155, R156). -/
def execBindStation (k : LinkNo) (f : Frame) (s : State) : Host.Outcome State Fault Refusal :=
  centreRequest k f (fun s =>
    match s.checkBind f.payload with
    | .error st => s.replyStatus k f st
    | .ok (k', q, role) => (s.bindStation k' q role).replyStatus k f .done) s

/-- UNBIND_STATION (R157). -/
def execUnbindStation (k : LinkNo) (f : Frame) (s : State) : Host.Outcome State Fault Refusal :=
  centreRequest k f (fun s =>
    if f.payload.length ≠ 2 then s.replyStatus k f .badValue
    else
      match positionAt f.payload with
      | none => s.replyStatus k f .badValue
      | some (k', q) =>
        if k' = s.centreLink ∧ q = 0 then s.replyStatus k f .notPermitted
        else (s.unbind k' q).replyStatus k f .done) s

end Sys2Proof.Machine
end

