-- ==== Sys2Proof/Machine/WeighRecord.lean ====
section
/-! DEFINITION. WEIGH RECORD (spec/01, section 1.5). -/

namespace Sys2Proof.Machine

/-- The fields of a WEIGH RECORD (spec/08, section 8.9). -/
structure Weighing where
  lane : LaneNo
  axles : List Nat
  confidence : Confidence
  age : Nat
  speed : Nat
deriving DecidableEq, Repr

/-- R18, step 3: the values of a record whose lane has been accepted. -/
def weighingAt (l : LaneNo) (p : List Byte) : Option Weighing :=
  let n := byteAt p 1
  let axles := loadsAt p 7 n
  let speed := wordAt p 5
  if p.length < 7 ∨ n < 2 ∨ 9 < n ∨ p.length ≠ 7 + 2 * n then none
  else if (axles.any fun x => decide (6500 < x)) = true ∨ speed < 50 ∨ 1500 < speed ∨ 2000 < wordAt p 3 then none
  else (confidenceOf (byteAt p 2)).map fun c => ⟨l, axles, c, wordAt p 3, speed⟩

/-- R18, steps 1 to 3. -/
def State.checkWeigh (s : State) (a : Approach) (lanes : BitVec 3) (p : List Byte) : Except Status Weighing :=
  if s.part.state = .unconfigured then .error .wrongState
  else if p = [] then .error .badValue
  else
    match countedFrom1 3 (byteAt p 0) with
    | none => .error .notPermitted
    | some l =>
      if member lanes l.val = false ∨ s.laneInUse a l = false then .error .notPermitted
      else
        match weighingAt l p with
        | none => .error .badValue
        | some w => .ok w

/-- R19, R126, R129: a refused record is answered and reported. R134 allows the two causes of a POOL_EMPTY in either
order: POOL_EXHAUSTED comes first, with all that follows from it, and WEIGH_LOSS with its event after (DESIGN CHOICE, log
29). -/
def State.refuseWeigh (s : State) (k : LinkNo) (f : Frame) (a : Approach) (st : Status) : State :=
  settle { st := s.answer k f (st.byte ++ [0, 0, 0]),
           out := (if st = .poolEmpty then [.addCause a .poolExhausted] else []) ++ [.weighLoss a] }

/-- R20: the answer to an accepted record. -/
def acceptedBytes (h : Handle) (t : Option Ticket) : List Byte :=
  Status.done.byte ++ one h ++ one (orZero Decision.code (t.bind Ticket.decision))
    ++ one (orZero Reason.code (t.bind Ticket.reason))

/-- R44: GANTRY_DUE. -/
def State.gantryDueOf (s : State) (t : Ticket) : Time :=
  after (t.weighTime.getD 0)
    (s.stretch (travel (s.profile.distWeighGantry.get t.approach) (t.speed.getD 0)))

/-- R22, steps 1 to 3: the ticket is decided, enters its lane list and gets its due. -/
def State.enterTicket (s : State) (t : Ticket) (l : LaneNo) : State :=
  let s := (s.addTicket t).evaluate t
  (s.joinLane t.approach l t.handle).setDue t.handle .gantryDue (s.gantryDueOf t)

/-- R21, R22: an accepted record makes a ticket, which is decided, placed, answered and shown. -/
def State.acceptWeigh (s : State) (k : LinkNo) (f : Frame) (a : Approach) (h : Handle) (w : Weighing) : State :=
  let t := weighedTicket h a w.lane (s.now - BitVec.ofNat 32 w.age) w.speed w.axles w.confidence
    s.profile.degradedMargin
  let s := s.enterTicket t w.lane
  settle { st := s.answer k f (acceptedBytes h (s.ticket h)), out := [.deriveLane a w.lane] }

/-- R18 to R22: a record of a weigh station is taken. -/
def State.takeWeigh (s : State) (k : LinkNo) (f : Frame) (a : Approach) (lanes : BitVec 3) : State :=
  match s.checkWeigh a lanes f.payload with
  | .error st => s.refuseWeigh k f a st
  | .ok w =>
    match s.ordinaryHandle w.axles.length with
    | none => (s.poolOverrun a).refuseWeigh k f a .poolEmpty
    | some h => s.acceptWeigh k f a h w

/-- WEIGH_RECORD (R18 to R22, R57, R58, R151). -/
def execWeighRecord (k : LinkNo) (f : Frame) (s : State) : Host.Outcome State Fault Refusal :=
  awake s fun s => s.receive k f (fun _ => none) fun p s =>
    match s.entry k p with
    | .bound (.weigh a lanes) _ => s.takeWeigh k f a lanes
    | .bound (.gantry _) _ => s.answerStatus k f .notPermitted
    | .bound .centre _ => s.answerStatus k f .notPermitted
    | .unbound => s.answerStatus k f .notPermitted

end Sys2Proof.Machine
end

