-- ==== Sys2Proof/Machine/Profile.lean ====
section
/-! DEFINITION. The site profile, part states and start-up (spec/11): profile items, commit, clearing, draining. -/

namespace Sys2Proof.Machine

/-! ## Items (R169) -/

/-- The items of R169, each with its index. -/
inductive Item where
  | spanCount
  | spanLength (i : SpanNo)
  | lanes (a : Approach)
  | bayCapacity (a : Approach)
  | distWeighGantry (a : Approach)
  | distGantryEntry (a : Approach)
  | distBayEntry (a : Approach)
  | lineAssign (d : LineNo)
  | linePolarity (d : LineNo)
  | clearance
  | intruderMass
  | spanLimit (i : SpanNo)
  | spanCountLimit (i : SpanNo)
  | axleLimit
  | grossLimit
  | degradedMargin
  | tolerance
  | slack
  | crawlSpeed
  | baySpeed
  | bayReleaseTime
  | maxHold
  | guard
  | skipLimit
  | confirmTime
  | silenceLimit
  | minPresence
  | stuckLimit
  | reportPeriod
  | escortWindow
  | escortWaitLimit
deriving DecidableEq, Repr

/-- An item that has no index takes index 0 only (R170). -/
def plainItem (index : Nat) (x : Item) : Option Item := if index = 0 then some x else none

/-- R169, R170: the item of a number and an index. -/
def itemOf (number index : Nat) : Option Item :=
  match number with
  | 1 => plainItem index .spanCount
  | 2 => (countedFrom1 4 index).map .spanLength
  | 3 => (approachOf index).map .lanes
  | 4 => (approachOf index).map .bayCapacity
  | 5 => (approachOf index).map .distWeighGantry
  | 6 => (approachOf index).map .distGantryEntry
  | 7 => (approachOf index).map .distBayEntry
  | 8 => (below 20 index).map .lineAssign
  | 9 => (below 20 index).map .linePolarity
  | 10 => plainItem index .clearance
  | 11 => plainItem index .intruderMass
  | 12 => (countedFrom1 4 index).map .spanLimit
  | 13 => (countedFrom1 4 index).map .spanCountLimit
  | 14 => plainItem index .axleLimit
  | 15 => plainItem index .grossLimit
  | 16 => plainItem index .degradedMargin
  | 17 => plainItem index .tolerance
  | 18 => plainItem index .slack
  | 19 => plainItem index .crawlSpeed
  | 20 => plainItem index .baySpeed
  | 21 => plainItem index .bayReleaseTime
  | 22 => plainItem index .maxHold
  | 23 => plainItem index .guard
  | 24 => plainItem index .skipLimit
  | 25 => plainItem index .confirmTime
  | 26 => plainItem index .silenceLimit
  | 27 => plainItem index .minPresence
  | 28 => plainItem index .stuckLimit
  | 29 => plainItem index .reportPeriod
  | 30 => plainItem index .escortWindow
  | 31 => plainItem index .escortWaitLimit
  | _ => none

/-- R169: a G item is one of numbers 1 to 11. -/
def isGItem (number : Nat) : Bool := decide (1 ≤ number) && decide (number ≤ 11)

/-- A value between two bounds. -/
def within (low high v : Nat) : Bool := decide (low ≤ v) && decide (v ≤ high)

/-- R169, R170: the range of an item. -/
def Item.inRange (x : Item) (v : Nat) : Bool :=
  match x with
  | .spanCount => within 1 4 v
  | .spanLength _ => within 10 500 v
  | .lanes _ => within 1 3 v
  | .bayCapacity _ => within 0 6 v
  | .distWeighGantry _ => within 100 3000 v
  | .distGantryEntry _ => within 50 2000 v
  | .distBayEntry _ => within 20 1000 v
  | .lineAssign _ => (assignmentOf v).isSome
  | .linePolarity _ => within 0 1 v
  | .clearance => within 10 1800 v
  | .intruderMass => within 1000 10000 v
  | .spanLimit _ => within 1000 200000 v
  | .spanCountLimit _ => within 1 15 v
  | .axleLimit => within 100 6500 v
  | .grossLimit => within 1000 60000 v
  | .degradedMargin => within 0 50 v
  | .tolerance => within 0 50 v
  | .slack => within 0 60000 v
  | .crawlSpeed => within 10 200 v
  | .baySpeed => within 50 300 v
  | .bayReleaseTime => within 5 300 v
  | .maxHold => within 60 3600 v
  | .guard => within 0 10000 v
  | .skipLimit => within 0 15 v
  | .confirmTime => within 50 2000 v
  | .silenceLimit => within 200 30000 v
  | .minPresence => within 10 1000 v
  | .stuckLimit => within 5 600 v
  | .reportPeriod => decide (v ∈ [0, 500, 1000, 2000, 5000])
  | .escortWindow => within 60 1800 v
  | .escortWaitLimit => within 60 3600 v

/-- R163, READ PROFILE ITEM: the value an item holds. -/
def State.itemValue (s : State) : Item → Nat
  | .spanCount => s.profile.spanCount
  | .spanLength i => s.profile.spanLength.get i
  | .lanes a => s.profile.lanes.get a
  | .bayCapacity a => s.profile.bayCapacity.get a
  | .distWeighGantry a => s.profile.distWeighGantry.get a
  | .distGantryEntry a => s.profile.distGantryEntry.get a
  | .distBayEntry a => s.profile.distBayEntry.get a
  | .lineAssign d => assignmentValue (s.line d).point
  | .linePolarity d => (s.line d).polarity.code
  | .clearance => s.profile.clearance
  | .intruderMass => s.profile.intruderMass
  | .spanLimit i => s.profile.spanLimit.get i
  | .spanCountLimit i => s.profile.spanCountLimit.get i
  | .axleLimit => s.profile.axleLimit
  | .grossLimit => s.profile.grossLimit
  | .degradedMargin => s.profile.degradedMargin
  | .tolerance => s.profile.tolerance
  | .slack => s.profile.slack
  | .crawlSpeed => s.profile.crawlSpeed
  | .baySpeed => s.profile.baySpeed
  | .bayReleaseTime => s.profile.bayReleaseTime
  | .maxHold => s.profile.maxHold
  | .guard => s.profile.guard
  | .skipLimit => s.profile.skipLimit
  | .confirmTime => s.profile.confirmTime
  | .silenceLimit => s.profile.silenceLimit
  | .minPresence => s.profile.minPresence
  | .stuckLimit => s.profile.stuckLimit
  | .reportPeriod => s.profile.reportPeriod
  | .escortWindow => s.profile.escortWindow
  | .escortWaitLimit => s.profile.escortWaitLimit

/-! ## Writes (R171) -/

/-- Change the profile. -/
def State.updProfile (s : State) (f : Profile → Profile) : State := { s with profile := f s.profile }

/-- R119, R171: LANES of an approach is written. -/
def writeLanes (a : Approach) (v : Nat) (s : State) : Eff :=
  let s' := s.updProfile fun p => { p with lanes := p.lanes.set a v }
  let change (l : LaneNo) (s'' : State) : Eff :=
    if s.laneInUse a l = s'.laneInUse a l then Eff.of s''
    else (resetLane a l s'').bind (deriveLane a l)
  (Eff.each allLanes change s').emit [.judgeWeigh a]

/-- R106, R119, R171: BAY_CAPACITY of an approach is written. -/
def writeBayCapacity (a : Approach) (v : Nat) (s : State) : Eff :=
  let s' := s.updProfile fun p => { p with bayCapacity := p.bayCapacity.set a v }
  if s.bayInUse a = s'.bayInUse a then Eff.of s' else (resetBay a s').bind (deriveBay a)

/-- R167: REPORT_PERIOD is written. -/
def State.writeReportPeriod (s : State) (v : Nat) : State :=
  let due :=
    if v = 0 then none
    else if s.profile.reportPeriod = 0 then some (after s.now v)
    else s.centre.reportDue
  { s with profile := { s.profile with reportPeriod := v }, centre := { s.centre with reportDue := due } }

/-- R171: an item takes a new value, with the effects beyond the item itself. -/
def writeItem (x : Item) (v : Nat) (s : State) : Eff :=
  match x with
  | .spanCount => Eff.of (s.updProfile fun p => { p with spanCount := v })
  | .spanLength i => Eff.of (s.updProfile fun p => { p with spanLength := upd p.spanLength i fun _ => v })
  | .lanes a => writeLanes a v s
  | .bayCapacity a => writeBayCapacity a v s
  | .distWeighGantry a => Eff.of (s.updProfile fun p => { p with distWeighGantry := p.distWeighGantry.set a v })
  | .distGantryEntry a => Eff.of (s.updProfile fun p => { p with distGantryEntry := p.distGantryEntry.set a v })
  | .distBayEntry a => Eff.of (s.updProfile fun p => { p with distBayEntry := p.distBayEntry.set a v })
  | .lineAssign d => assignLine d ((assignmentOf v).getD none) s
  | .linePolarity d => setPolarity d (if v = 0 then .high else .low) s
  | .clearance => Eff.of (s.updProfile fun p => { p with clearance := v })
  | .intruderMass => Eff.of (s.updProfile fun p => { p with intruderMass := v })
  | .spanLimit i => writeMassLimit i v s
  | .spanCountLimit i => writeCountLimit i v s
  | .axleLimit => Eff.of (s.updProfile fun p => { p with axleLimit := v })
  | .grossLimit => Eff.of (s.updProfile fun p => { p with grossLimit := v })
  | .degradedMargin => Eff.of (s.updProfile fun p => { p with degradedMargin := v })
  | .tolerance => Eff.of (s.updProfile fun p => { p with tolerance := v })
  | .slack => Eff.of (s.updProfile fun p => { p with slack := v })
  | .crawlSpeed => Eff.of (s.updProfile fun p => { p with crawlSpeed := v })
  | .baySpeed => Eff.of (s.updProfile fun p => { p with baySpeed := v })
  | .bayReleaseTime => Eff.of (s.updProfile fun p => { p with bayReleaseTime := v })
  | .maxHold => Eff.of (s.updProfile fun p => { p with maxHold := v })
  | .guard => Eff.of (s.updProfile fun p => { p with guard := v })
  | .skipLimit => Eff.of (s.updProfile fun p => { p with skipLimit := v })
  | .confirmTime => Eff.of (s.updProfile fun p => { p with confirmTime := v })
  | .silenceLimit => Eff.of (s.updProfile fun p => { p with silenceLimit := v })
  | .minPresence => Eff.of (s.updProfile fun p => { p with minPresence := v })
  | .stuckLimit => Eff.of (s.updProfile fun p => { p with stuckLimit := v })
  | .reportPeriod => Eff.of (s.writeReportPeriod v)
  | .escortWindow => Eff.of (s.updProfile fun p => { p with escortWindow := v })
  | .escortWaitLimit => Eff.of (s.updProfile fun p => { p with escortWaitLimit := v })

/-- R171: a write of the value an item already holds changes nothing further, except for the two limits. -/
def Item.isLimit : Item → Bool
  | .spanLimit _ => true
  | .spanCountLimit _ => true
  | _ => false

/-- R170: the checks of a SET PROFILE ITEM. -/
def State.checkSet (s : State) (p : List Byte) : Except Status (Item × Nat) :=
  if p.length ≠ 6 then .error .badValue
  else
    match itemOf (byteAt p 0) (byteAt p 1) with
    | none => .error .badValue
    | some x =>
      if isGItem (byteAt p 0) = true ∧ s.part.state ≠ .unconfigured then .error .wrongState
      else if x.inRange (longAt p 2) = true then .ok (x, longAt p 2)
      else .error .badValue

/-- R171: an accepted write. -/
def State.setItem (s : State) (x : Item) (v : Nat) : State :=
  if s.itemValue x = v ∧ x.isLimit = false then s else settle (writeItem x v s)

/-- SET_PROFILE_ITEM (R170, R171). -/
def execSetProfileItem (k : LinkNo) (f : Frame) (s : State) : Host.Outcome State Fault Refusal :=
  centreRequest k f (fun s =>
    match s.checkSet f.payload with
    | .error st => s.replyStatus k f st
    | .ok (x, v) => (s.setItem x v).replyStatus k f .done) s

/-! ## Commit (R173, R174) -/

/-- The points a site needs on an approach, in the order of R173. -/
def State.requiredPoints (s : State) (a : Approach) : List Point :=
  ((allLanes.filter fun l => s.laneInUse a l).map fun l => ⟨a, .gantry l⟩)
    ++ (if s.bayInUse a = true then [⟨a, .bayExit⟩] else [])
    ++ [⟨a, .entry⟩]
    ++ (([0, 1, 2] : List (Fin 3)).filter fun k => decide (k.val + 1 < s.profile.spanCount)).map (fun k => ⟨a, .boundary k⟩)
    ++ [⟨a, .exit⟩]

/-- The five result bytes of BAD_PROFILE. -/
def badProfile (item index : Nat) (pt : Option Point) : List Byte :=
  one item ++ one index ++ (assignmentFields pt).flatMap one

/-- R173, check 1, for one span. -/
def State.spanFault (s : State) (i : SpanNo) : Option (List Byte) :=
  if s.profile.spanLength.get i = 0 then some (badProfile 2 (i.val + 1) none)
  else if s.profile.spanLimit.get i = 0 then some (badProfile 12 (i.val + 1) none)
  else none

/-- R173, check 2, for one approach. -/
def State.distanceFault (s : State) (a : Approach) : Option (List Byte) :=
  if s.profile.distWeighGantry.get a = 0 then some (badProfile 5 (approachCode a) none)
  else if s.profile.distGantryEntry.get a = 0 then some (badProfile 6 (approachCode a) none)
  else if s.bayInUse a = true ∧ s.profile.distBayEntry.get a = 0 then some (badProfile 7 (approachCode a) none)
  else none

/-- R173, check 3, for one point. -/
def State.pointFault (s : State) (pt : Point) : Option (List Byte) :=
  match allLines.filter fun d => decide ((s.line d).point = some pt) with
  | [] => some (badProfile 8 255 (some pt))
  | [_] => none
  | _ :: d :: _ => some (badProfile 8 d.val (some pt))

/-- R173, check 4, for one line. -/
def State.lineFault (s : State) (d : LineNo) : Option (List Byte) :=
  match (s.line d).point with
  | none => none
  | some pt => if pt ∈ s.requiredPoints pt.approach then none else some (badProfile 8 d.val none)

/-- R173: the first failure of the validation, as result bytes. -/
def State.profileFault (s : State) : Option (List Byte) :=
  (s.spansInUse.findSome? s.spanFault).or
    (([Approach.A, .B].findSome? s.distanceFault).or
      (((s.requiredPoints .A ++ s.requiredPoints .B).findSome? s.pointFault).or (allLines.findSome? s.lineFault)))

/-- R174, steps 1 to 4. -/
def State.commit (s : State) : State :=
  let s := { s with part := { s.part with state := .clearing } }
  let presumed := Eff.each s.spansInUse (setPresumed SpanRec.massLimit) s
  settle ((presumed.map fun s =>
    { s with part := { s.part with clearanceDue := some (after s.now (s.profile.clearance * 1000)) } }).emit
      [.weighLoss .A, .weighLoss .B])

/-- COMMIT_PROFILE (R173, R174). -/
def execCommitProfile (k : LinkNo) (f : Frame) (s : State) : Host.Outcome State Fault Refusal :=
  centreRequest k f (fun s =>
    if f.payload ≠ [] then s.replyStatus k f .badValue
    else if s.part.state ≠ .unconfigured then s.replyStatus k f .wrongState
    else
      match s.profileFault with
      | some bytes => s.reply k f (Status.badProfile.byte ++ bytes)
      | none => s.commit.replyStatus k f .done) s

/-- R175, steps 1 to 5. -/
def State.clear (s : State) : State :=
  let s := { s with part := { s.part with state := .running, clearanceDue := none } }
  settle ((Eff.each s.spansInUse (setPresumed fun _ => 0) s).emit [.enteredRunning, .arbiter])

/-- CLEARANCE_DUE (R175). -/
def execClearanceDue (s : State) : Host.Outcome State Fault Refusal :=
  awake s fun s =>
    if s.part.state = .clearing ∧ (s.part.clearanceDue.any fun due => hasCome s.now due) = true then s.clear else s

/-! ## Draining (R176 to R178) -/

/-- R176, step 3: an escort in the escort slot closes CANCELLED. -/
def State.cancelSlot (s : State) : State :=
  match s.admission.escortSlot with
  | none => s
  | some h => settle (closeTicket h .cancelled s)

/-- R176, steps 1 to 4. -/
def State.reconfigure (s : State) : State :=
  let s := { s with part := { s.part with state := .draining } }
  (settle { st := s, out := [.leftRunning] }).cancelSlot.drained

/-- RECONFIGURE (R176, R177). -/
def execReconfigure (k : LinkNo) (f : Frame) (s : State) : Host.Outcome State Fault Refusal :=
  centreRequest k f (fun s =>
    if f.payload ≠ [] then s.replyStatus k f .badValue
    else if s.part.state ≠ .running then s.replyStatus k f .wrongState
    else
      let s := s.reconfigure
      s.reply k f (Status.done.byte ++ one s.part.state.code)) s

/-- R178, steps 1 to 3. -/
def State.resume (s : State) : State :=
  settle { st := { s with part := { s.part with state := .running } }, out := [.enteredRunning, .arbiter] }

/-- RESUME (R178). -/
def execResume (k : LinkNo) (f : Frame) (s : State) : Host.Outcome State Fault Refusal :=
  centreRequest k f (fun s =>
    if f.payload ≠ [] then s.replyStatus k f .badValue
    else if s.part.state ≠ .draining then s.replyStatus k f .wrongState
    else s.resume.reply k f (Status.done.byte ++ one PartState.running.code)) s

end Sys2Proof.Machine
end

