-- ==== Sys2Proof/Machine/Centre.lean ====
section
/-! DEFINITION. Centre services (spec/10) and the centre's orders to approach mode control (spec/07, 7.4 and 7.5):
queries, the event summary, the close queue, the alert mask, SPAN REPORT, SET APPROACH, ACKNOWLEDGE OVERLOAD. -/

namespace Sys2Proof.Machine

/-! ## Queries (R162, R163) -/

/-- QUERY PART: the fields after the status. -/
def State.partFields (s : State) : List Byte :=
  one s.part.state.code ++ one s.part.resetCause.code ++ timeBytes s.now ++ one s.freeHandles ++ one s.table.freeCells
    ++ one s.table.closeQueue.length ++ setBytes s.centre.summary ++ two s.table.poolOverruns ++ two s.table.intrusions
    ++ two s.table.violations ++ two s.table.strays ++ two s.table.closeLost ++ one (approachCode s.admission.turn)
    ++ one s.admission.skip.A ++ one s.admission.skip.B ++ setBytes s.modes.A.causes ++ setBytes s.modes.B.causes

/-- QUERY_PART (R163). -/
def execQueryPart (k : LinkNo) (f : Frame) (s : State) : Host.Outcome State Fault Refusal :=
  centreRequest k f (fun s =>
    if f.payload ≠ [] then s.replyStatus k f .badValue
    else s.reply k f (Status.done.byte ++ s.partFields)) s

/-- QUERY SPAN: the record of R23. -/
def SpanRec.fields (r : SpanRec) : List Byte :=
  four r.massLimit ++ four (r.massTarget.getD 0) ++ one r.countLimit ++ one (r.countTarget.getD 0) ++ four r.mass
    ++ one r.count ++ four r.forcedMass ++ one r.forcedCount ++ four r.presumed ++ four r.onMass ++ one r.onCount
    ++ one (yesNo r.overloaded)

/-- QUERY_SPAN (R163). -/
def execQuerySpan (k : LinkNo) (f : Frame) (s : State) : Host.Outcome State Fault Refusal :=
  centreRequest k f (fun s =>
    if f.payload.length ≠ 1 then s.replyStatus k f .badValue
    else
      match countedFrom1 4 (byteAt f.payload 0) with
      | none => s.replyStatus k f .badValue
      | some i => s.reply k f (Status.done.byte ++ (s.spanRec i).fields)) s

/-- QUERY TICKET: the fields after the status. -/
def ticketFields (t : Ticket) (due : Option Deadline) : List Byte :=
  one t.handle ++ one t.origin.code ++ one (approachCode t.approach) ++ one (orZero (·.val + 1) t.lane)
    ++ timeBytes (t.weighTime.getD 0) ++ two (t.speed.getD 0) ++ four (t.gross.getD 0)
    ++ one (orZero Confidence.code t.confidence) ++ four t.mass ++ one (orZero Decision.code t.decision)
    ++ one (orZero Reason.code t.reason) ++ one t.state.code ++ setBytes t.claims ++ one (yesNo t.forced)
    ++ one (orZero (·.val + 1) t.span) ++ one (orZero (fun d => d.kind.code) due)
    ++ timeBytes ((due.map Deadline.due).getD 0) ++ setBytes t.flags ++ one t.axles.length ++ t.axles.flatMap two

/-- QUERY_TICKET (R163). A handle of 0, above 60 or free names no ticket. -/
def execQueryTicket (k : LinkNo) (f : Frame) (s : State) : Host.Outcome State Fault Refusal :=
  centreRequest k f (fun s =>
    if f.payload.length ≠ 1 then s.replyStatus k f .badValue
    else
      match s.ticket (byteAt f.payload 0) with
      | none => s.replyStatus k f .noTicket
      | some t => s.reply k f (Status.done.byte ++ ticketFields t (s.dueOf t.handle))) s

/-- QUERY STATION: one aspect record (R105, R106). -/
def AspectRec.fields {α : Type} (code : α → Nat) (r : AspectRec α) : List Byte :=
  one (code r.wanted) ++ one (or255 code r.ordered) ++ one (or255 code r.confirmed) ++ one r.order.code
    ++ one r.order.tagCode ++ timeBytes r.order.dueTime ++ one (or255 code r.pending)

/-- QUERY STATION: the aspect records of an approach. -/
def State.aspectFields (s : State) (a : Approach) : List Byte :=
  allLanes.flatMap (fun l => (s.lane a l).fields Aspect.code) ++ (s.bay a).fields BayAspect.code

/-- QUERY STATION: liveness and silence due. -/
def Liveness.fields : Liveness → List Byte
  | .live due => one 1 ++ timeBytes due
  | .silent => one 2 ++ timeBytes 0

/-- QUERY STATION: the fields after the status. -/
def State.entryFields (s : State) : Entry → List Byte
  | .unbound => one 0 ++ one 0 ++ two 0 ++ one 0 ++ timeBytes 0
  | .bound (.weigh a lanes) l => one 1 ++ one (approachCode a) ++ setBytes lanes ++ l.fields
  | .bound (.gantry a) l => one 2 ++ one (approachCode a) ++ two 0 ++ l.fields ++ s.aspectFields a
  | .bound .centre l => one 3 ++ one 0 ++ two 0 ++ l.fields

/-- QUERY_STATION (R163). -/
def execQueryStation (k : LinkNo) (f : Frame) (s : State) : Host.Outcome State Fault Refusal :=
  centreRequest k f (fun s =>
    if f.payload.length ≠ 2 then s.replyStatus k f .badValue
    else
      match positionAt f.payload with
      | none => s.replyStatus k f .badValue
      | some (k', q) =>
        s.reply k f (Status.done.byte ++ s.entryFields (s.entry k' q))) s

/-- QUERY LINK: the fields after the status; the queue figure includes the answer itself, when it is on its own
link. -/
def linkFields (r : LinkRec) (inQueue : Nat) : List Byte :=
  one r.chain ++ one inQueue ++ two r.framing ++ two r.noise ++ two r.length ++ two r.check ++ two r.strayHop
    ++ two r.strayAnswer

/-- QUERY_LINK (R163). -/
def execQueryLink (k : LinkNo) (f : Frame) (s : State) : Host.Outcome State Fault Refusal :=
  centreRequest k f (fun s =>
    if f.payload.length ≠ 1 then s.replyStatus k f .badValue
    else
      match below 4 (byteAt f.payload 0) with
      | none => s.replyStatus k f .badValue
      | some k' =>
        s.reply k f (Status.done.byte ++ linkFields (s.link k')
          ((s.link k').queue.length + if k' = k then 1 else 0))) s

/-- QUERY LINE: the fields after the status. -/
def LineRec.fields (r : LineRec) : List Byte :=
  (assignmentFields r.point).flatMap one ++ one r.polarity.code ++ one r.state.code ++ timeBytes r.lastCapture
    ++ two r.noise

/-- QUERY_LINE (R163). -/
def execQueryLine (k : LinkNo) (f : Frame) (s : State) : Host.Outcome State Fault Refusal :=
  centreRequest k f (fun s =>
    if f.payload.length ≠ 1 then s.replyStatus k f .badValue
    else
      match below 20 (byteAt f.payload 0) with
      | none => s.replyStatus k f .badValue
      | some d => s.reply k f (Status.done.byte ++ (s.line d).fields)) s

/-- READ_PROFILE_ITEM (R163). -/
def execReadProfileItem (k : LinkNo) (f : Frame) (s : State) : Host.Outcome State Fault Refusal :=
  centreRequest k f (fun s =>
    if f.payload.length ≠ 2 then s.replyStatus k f .badValue
    else
      match itemOf (byteAt f.payload 0) (byteAt f.payload 1) with
      | none => s.replyStatus k f .badValue
      | some x => s.reply k f (Status.done.byte ++ four (s.itemValue x))) s

/-! ## The event summary, the close queue, the alert mask -/

/-- READ_EVENTS (R164). -/
def execReadEvents (k : LinkNo) (f : Frame) (s : State) : Host.Outcome State Fault Refusal :=
  centreRequest k f (fun s =>
    if f.payload ≠ [] then s.replyStatus k f .badValue
    else
      ({ s with centre := { s.centre with summary := 0 } } : State).reply k f
        (Status.done.byte ++ setBytes s.centre.summary)) s

/-- COLLECT CLOSE: the fields of a summary in the order of R15. -/
def Summary.fields (x : Summary) : List Byte :=
  one x.handle ++ one x.origin.code ++ one (approachCode x.approach) ++ one (orZero (·.val + 1) x.lane)
    ++ one x.outcome.code ++ one (orZero Decision.code x.decision) ++ one (orZero Reason.code x.reason)
    ++ setBytes x.flags ++ timeBytes (x.weighTime.getD 0) ++ timeBytes x.closeTime ++ four x.mass

/-- COLLECT_CLOSE (R165). -/
def execCollectClose (k : LinkNo) (f : Frame) (s : State) : Host.Outcome State Fault Refusal :=
  centreRequest k f (fun s =>
    if f.payload ≠ [] then s.replyStatus k f .badValue
    else
      match s.table.closeQueue with
      | [] => s.replyStatus k f .empty
      | x :: xs => (s.updTable fun t => { t with closeQueue := xs }).reply k f (Status.done.byte ++ x.fields)) s

/-- SET_ALERT_MASK (R166). -/
def execSetAlertMask (k : LinkNo) (f : Frame) (s : State) : Host.Outcome State Fault Refusal :=
  centreRequest k f (fun s =>
    let v := wordAt f.payload 0
    if f.payload.length ≠ 2 ∨ 4096 ≤ v then s.replyStatus k f .badValue
    else ({ s with centre := { s.centre with mask := BitVec.ofNat 12 v } } : State).replyStatus k f .done) s

/-! ## SPAN REPORT (R167) -/

/-- R167: the payload of a SPAN REPORT. -/
def State.reportFields (s : State) : List Byte :=
  one s.profile.spanCount
    ++ (s.spansInUse.flatMap fun i =>
        let r := s.spanRec i
        four r.mass ++ one r.count ++ four r.onMass ++ one r.onCount ++ one (yesNo r.overloaded))
    ++ setBytes s.modes.A.causes ++ setBytes s.modes.B.causes

/-- R167: the report due has come. -/
def State.report (s : State) (due : Time) : State :=
  let s := { s with centre := { s.centre with reportDue := some (after due s.profile.reportPeriod) } }
  s.notify .spanReport s.reportFields

/-- REPORT_DUE (R167). -/
def execReportDue (s : State) : Host.Outcome State Fault Refusal :=
  awake s fun s =>
    match s.centre.reportDue with
    | none => s
    | some due => if hasCome s.now due = true then s.report due else s

/-! ## SET APPROACH and ACKNOWLEDGE OVERLOAD -/

/-- R135: the effect on CENTRE_ORDER. -/
def State.setApproach (s : State) (a : Approach) (close : Bool) : State :=
  settle (if close = true then addCause a .centreOrder s else removeCause a .centreOrder s)

/-- SET_APPROACH (R135). -/
def execSetApproach (k : LinkNo) (f : Frame) (s : State) : Host.Outcome State Fault Refusal :=
  centreRequest k f (fun s =>
    if f.payload.length ≠ 2 ∨ 1 < byteAt f.payload 1 then s.replyStatus k f .badValue
    else
      match approachOf (byteAt f.payload 0) with
      | none => s.replyStatus k f .badValue
      | some a =>
        let s := s.setApproach a (decide (byteAt f.payload 1 = 1))
        s.reply k f (Status.done.byte ++ setBytes (s.mode a).causes)) s

/-- ACKNOWLEDGE_OVERLOAD (R36, R136). -/
def execAcknowledgeOverload (k : LinkNo) (f : Frame) (s : State) : Host.Outcome State Fault Refusal :=
  centreRequest k f (fun s =>
    if f.payload ≠ [] then s.replyStatus k f .badValue
    else if s.holds .A .overload = false ∧ s.holds .B .overload = false then s.replyStatus k f .done
    else if s.anyOverloaded = true then s.replyStatus k f .wrongState
    else (settle { st := s, out := [.overloadAcknowledged] }).replyStatus k f .done) s

end Sys2Proof.Machine
end

