-- ==== Sys2Proof/Machine/Escort.lean ====
section
/-! DEFINITION. The centre's requests about tickets: ESCORT and CANCEL ESCORT (spec/04, 4.7), WRITE OFF (spec/05,
5.5). -/

namespace Sys2Proof.Machine

/-- The fields of an ESCORT request. -/
structure EscortRequest where
  approach : Approach
  speed : Nat
  axles : List Nat
deriving DecidableEq, Repr

/-- R79, step 3, up to the axle loads' own bounds. -/
def escortAt (p : List Byte) : Option EscortRequest :=
  let n := byteAt p 3
  if p.length < 4 ∨ n < 2 ∨ 9 < n ∨ p.length ≠ 4 + 2 * n ∨ wordAt p 1 < 50 ∨ 1500 < wordAt p 1 then none
  else (approachOf (byteAt p 0)).map fun a => ⟨a, wordAt p 1, loadsAt p 4 n⟩

/-- R79, step 3: the loads are within AXLE_LIMIT, and their sum within every effective mass limit. -/
def State.carries (s : State) (axles : List Nat) : Bool :=
  (axles.all fun x => decide (x ≤ s.profile.axleLimit))
    && s.spansInUse.all fun i => decide (axles.sum ≤ (s.spanRec i).massLimit)

/-- R79, step 2: an escort ticket is live. -/
def State.escortLives (s : State) : Bool := s.table.tickets.any fun t => decide (t.origin = .escort)

/-- R79, steps 1 to 3. -/
def State.checkEscort (s : State) (p : List Byte) : Except Status EscortRequest :=
  if s.part.state = .unconfigured ∨ s.part.state = .draining then .error .wrongState
  else if s.escortLives = true then .error .wrongState
  else
    match escortAt p with
    | none => .error .badValue
    | some x => if s.carries x.axles = true then .ok x else .error .badValue

/-- R79: a refused ESCORT is answered with handle 0. -/
def State.refuseEscort (s : State) (k : LinkNo) (f : Frame) (st : Status) : State := s.reply k f (st.byte ++ one 0)

/-- R80, steps 1 and 2: the ticket enters the escort slot with its WAIT_LIMIT. -/
def State.enterSlot (s : State) (t : Ticket) : State :=
  let s := s.addTicket t
  let s := { s with admission := { s.admission with escortSlot := some t.handle } }
  s.setDue t.handle .waitLimit (after s.now (s.profile.escortWaitLimit * 1000))

/-- R80: an accepted ESCORT. -/
def State.acceptEscort (s : State) (k : LinkNo) (f : Frame) (h : Handle) (x : EscortRequest) : State :=
  let s := s.enterSlot (escortTicket h x.approach s.now x.speed x.axles)
  settle { st := s.reply k f (Status.done.byte ++ one h), out := [.arbiter] }

/-- ESCORT (R79, R80). -/
def execEscort (k : LinkNo) (f : Frame) (s : State) : Host.Outcome State Fault Refusal :=
  centreRequest k f (fun s =>
    match s.checkEscort f.payload with
    | .error st => s.refuseEscort k f st
    | .ok x =>
      match s.ordinaryHandle x.axles.length with
      | none => (s.poolOverrun x.approach).refuseEscort k f .poolEmpty
      | some h => s.acceptEscort k f h x) s

/-- R81: the answer to a CANCEL ESCORT that names a ticket. -/
def cancelCheck (t : Ticket) : Status :=
  if t.origin ≠ .escort then .noTicket else if t.state = .crossing then .wrongState else .done

/-- R103: the answer to a WRITE OFF that names a ticket. -/
def writeOffCheck (t : Ticket) : Status :=
  if t.state = .crossing ∧ t.has .stalled = true then .done else .wrongState

/-- R81, R103: a request with a handle alone that closes the ticket it names when its check says DONE. -/
def closeRequest (check : Ticket → Status) (outcome : CloseOutcome) (k : LinkNo) (f : Frame) (s : State) : State :=
  if f.payload.length ≠ 1 then s.replyStatus k f .badValue
  else
    match s.ticket (byteAt f.payload 0) with
    | none => s.replyStatus k f .noTicket
    | some t =>
      if check t = .done then (settle (closeTicket t.handle outcome s)).replyStatus k f .done
      else s.replyStatus k f (check t)

/-- CANCEL_ESCORT (R81). -/
def execCancelEscort (k : LinkNo) (f : Frame) (s : State) : Host.Outcome State Fault Refusal :=
  centreRequest k f (closeRequest cancelCheck .cancelled k f) s

/-- WRITE_OFF (R103). -/
def execWriteOff (k : LinkNo) (f : Frame) (s : State) : Host.Outcome State Fault Refusal :=
  centreRequest k f (closeRequest writeOffCheck .writtenOff k f) s

end Sys2Proof.Machine
end

