-- ==== Sys2Proof/Machine/Dues.lean ====
section
/-! DEFINITION. The dues that are not the profile's, the lines' or centre services': ticket dues (R54), order dues
(R115), silence dues (R153), loss-until times (R126). A row acts only when its due has come (log 3). -/

namespace Sys2Proof.Machine

/-- R54: the head of the deadline list, of the row's kind and come, is removed and delivered. -/
def deliverDue (kind : DueKind) (take : Deadline → State → Eff) (s : State) : Host.Outcome State Fault Refusal :=
  awake s fun s =>
    match s.takeDue kind with
    | none => s
    | some (d, s) => settle (take d s)

/-- GANTRY_DUE (R88). -/
def execGantryDue (s : State) : Host.Outcome State Fault Refusal := deliverDue .gantryDue gantryDueCome s

/-- BAY_LIMIT (R71, R72). -/
def execBayLimit (s : State) : Host.Outcome State Fault Refusal :=
  deliverDue .bayLimit (fun d => bayLimitCome d.handle) s

/-- RELEASE_DUE (R91, R73). -/
def execReleaseDue (s : State) : Host.Outcome State Fault Refusal := deliverDue .releaseDue releaseDueCome s

/-- ENTRY_DUE (R96). -/
def execEntryDue (s : State) : Host.Outcome State Fault Refusal := deliverDue .entryDue entryDueCome s

/-- WATCH_END (R97). -/
def execWatchEnd (s : State) : Host.Outcome State Fault Refusal :=
  deliverDue .watchEnd (fun d => closeTicket d.handle .complied) s

/-- SPAN_DUE (R102). -/
def execSpanDue (s : State) : Host.Outcome State Fault Refusal := deliverDue .spanDue spanDueCome s

/-- WAIT_LIMIT (R77). -/
def execWaitLimit (s : State) : Host.Outcome State Fault Refusal :=
  deliverDue .waitLimit (fun d => closeTicket d.handle .lapsed) s

/-- R115: the confirm due of an outstanding order has come. -/
def OrderState.runsOut (o : OrderState) (now : Time) : Bool :=
  match o with
  | .awaiting _ due => hasCome now due
  | .idle => false
  | .failed => false

/-- ORDER_CONFIRM_DUE (R115). -/
def execOrderConfirmDue (a : Approach) (r : RecordId) (s : State) : Host.Outcome State Fault Refusal :=
  awake s fun s => if (s.orderOf a r).runsOut s.now = true then settle (lostRecord a r s) else s

/-- R153: the silence due of an entry has come. -/
def Entry.fallsSilent (e : Entry) (now : Time) : Bool :=
  match e with
  | .bound _ (.live due) => hasCome now due
  | .bound _ .silent => false
  | .unbound => false

/-- R153, R154: the entry becomes SILENT, and the change is reported. -/
def State.silence (s : State) (k : LinkNo) (p : PosNo) : State :=
  match s.entry k p with
  | .unbound => s
  | .bound role _ => settle { st := s.setEntry k p (.bound role .silent), out := judgeRole role }

/-- SILENCE_DUE (R153, R154). -/
def execSilenceDue (k : LinkNo) (p : PosNo) (s : State) : Host.Outcome State Fault Refusal :=
  awake s fun s => if (s.entry k p).fallsSilent s.now = true then s.silence k p else s

/-- R126: the loss-until time of an approach has come. -/
def State.lossOver (s : State) (a : Approach) : Bool := (s.mode a).lossUntil.any fun u => hasCome s.now u

/-- LOSS_UNTIL (R126). -/
def execLossUntil (a : Approach) (s : State) : Host.Outcome State Fault Refusal :=
  awake s fun s =>
    if s.lossOver a = true then
      settle (removeCause a .weighLoss (s.updMode a fun m => { m with lossUntil := none }))
    else s

end Sys2Proof.Machine
end

