-- ==== Sys2Proof/Machine/Resets.lean ====
section
/-! DEFINITION. Resets (R133, R179, R180), and FRAME_SENT, which may begin one (R144). -/

namespace Sys2Proof.Machine

/-- R179: of two kinds of reset that overlap, the one that is recorded. -/
def stronger : Option ResetKind → ResetKind → ResetKind
  | none, x => x
  | some .supply, _ => .supply
  | some .line, .supply => .supply
  | some .line, .line => .line
  | some .line, .command => .line
  | some .command, x => x

/-- R179: a link of a part held in reset: nothing is driven and the transmit queue is empty. -/
def LinkRec.held (r : LinkRec) : LinkRec := { r.endReception with queue := [] }

/-- R133, R179: the part is held in reset: it drives no link, its transmit queues are empty and both divert-all lines
read asserted. What else it holds is gone at the end of the reset (log 12). -/
def State.beginReset (s : State) (kind : ResetKind) : State :=
  { s with
    part := { s.part with held := some (stronger s.part.held kind) },
    links := s.links.map LinkRec.held,
    modes := ⟨{ s.modes.A with lineAsserted := true }, { s.modes.B with lineAsserted := true }⟩ }

/-- R137 to R172: every block holds the reset values of its chapter; the pins keep their levels, and the commands that
wait go on waiting. -/
def State.resetValues (s : State) (kind : ResetKind) (centreLink : LinkNo) : State :=
  { State.reset with
    part := { State.reset.part with resetCause := kind },
    directory := directoryReset centreLink,
    centreLink := centreLink,
    lines := s.lines.map fun r => LineRec.reset r.level,
    aspects := ⟨AspectSet.reset, AspectSet.reset⟩,
    modes := ⟨Mode.reset, Mode.reset⟩,
    pending := s.pending }

/-- R47: a line that shows presence at the end of a reset takes a leading edge at that moment. -/
def State.edgeAtResetEnd (s : State) (d : LineNo) : State :=
  if (s.line d).shows = true then s.takeLeading d else s

/-- R119, R47, R179: the end of a reset: every lane in use is derived, and the lines are looked at. -/
def State.endReset (s : State) (kind : ResetKind) (centreLink : LinkNo) : State :=
  let s := settle ((deriveLanes .A (s.resetValues kind centreLink)).bind (deriveLanes .B))
  allLines.foldl State.edgeAtResetEnd s

/-- R150: the centre link that the two straps choose. -/
def strappedLink (csel1 csel0 : Bool) : LinkNo :=
  match csel1, csel0 with
  | false, false => 0
  | false, true => 1
  | true, false => 2
  | true, true => 3

/-- SUPPLY_RESET (R179). -/
def execSupplyReset (s : State) : Host.Outcome State Fault Refusal := .next (s.beginReset .supply)

/-- LINE_RESET (R179). -/
def execLineReset (s : State) : Host.Outcome State Fault Refusal := .next (s.beginReset .line)

/-- RESET_END (R47, R119, R150, R179). A part that is not held in reset is left alone (log 3). -/
def execResetEnd (csel1 csel0 : Bool) (s : State) : Host.Outcome State Fault Refusal :=
  .next (match s.part.held with
    | none => s
    | some kind => s.endReset kind (strappedLink csel1 csel0))

/-- R180: the answer to RESET PART. Dropped at a full queue, it begins the reset at once. -/
def State.resetPart (s : State) (k : LinkNo) (f : Frame) : State :=
  let s := s.heardCentre k f
  let answer := { txFrame f.hop .answer f.tag Status.done.byte with resetAnswer := true }
  if s.hasRoom k = true then s.enqueue k answer else (s.offer k answer).beginReset .command

/-- RESET_PART (R180). -/
def execResetPart (k : LinkNo) (f : Frame) (s : State) : Host.Outcome State Fault Refusal :=
  centreRequest k f (fun s =>
    if f.payload ≠ [] then s.replyStatus k f .badValue else s.resetPart k f) s

/-- R138, R144: the frame at the head of the queue has been sent. -/
def LinkRec.sent (r : LinkRec) : LinkRec := { r with lineState := .listening, queue := r.queue.tail }

/-- R144, R180: whether the frame at the head of a link's queue is the answer to RESET PART. -/
def LinkRec.sendsResetAnswer (r : LinkRec) : Bool := r.queue.head?.any fun f => f.resetAnswer

/-- FRAME_SENT (R138, R144, R180). -/
def execFrameSent (k : LinkNo) (s : State) : Host.Outcome State Fault Refusal :=
  awake s fun s =>
    if (s.link k).lineState = .sending then
      let sent := s.updLink k LinkRec.sent
      if (s.link k).sendsResetAnswer = true then sent.beginReset .command else sent
    else s

end Sys2Proof.Machine
end

