-- ==== Sys2Proof/Machine/Dispatch.lean ====
section
/-! DEFINITION. One arm for each command: its meaning. -/

namespace Sys2Proof.Machine

/-- What a command does to everything but the queue of the commands that wait. -/
def exec (i : Instr) (s : State) : Host.Outcome State Fault Refusal :=
  match i with
  | .weighRecord k f => Sys2Proof.Machine.execWeighRecord k f s
  | .keepalive k f => Sys2Proof.Machine.execKeepalive k f s
  | .chainSet k f => Sys2Proof.Machine.execChainSet k f s
  | .answer k f => Sys2Proof.Machine.execAnswer k f s
  | .unknownKind k code f => Sys2Proof.Machine.execUnknownKind k code f s
  | .queryPart k f => Sys2Proof.Machine.execQueryPart k f s
  | .querySpan k f => Sys2Proof.Machine.execQuerySpan k f s
  | .queryTicket k f => Sys2Proof.Machine.execQueryTicket k f s
  | .queryStation k f => Sys2Proof.Machine.execQueryStation k f s
  | .queryLink k f => Sys2Proof.Machine.execQueryLink k f s
  | .queryLine k f => Sys2Proof.Machine.execQueryLine k f s
  | .readProfileItem k f => Sys2Proof.Machine.execReadProfileItem k f s
  | .readEvents k f => Sys2Proof.Machine.execReadEvents k f s
  | .collectClose k f => Sys2Proof.Machine.execCollectClose k f s
  | .setProfileItem k f => Sys2Proof.Machine.execSetProfileItem k f s
  | .commitProfile k f => Sys2Proof.Machine.execCommitProfile k f s
  | .reconfigure k f => Sys2Proof.Machine.execReconfigure k f s
  | .resume k f => Sys2Proof.Machine.execResume k f s
  | .bindStation k f => Sys2Proof.Machine.execBindStation k f s
  | .unbindStation k f => Sys2Proof.Machine.execUnbindStation k f s
  | .setApproach k f => Sys2Proof.Machine.execSetApproach k f s
  | .setAlertMask k f => Sys2Proof.Machine.execSetAlertMask k f s
  | .escort k f => Sys2Proof.Machine.execEscort k f s
  | .cancelEscort k f => Sys2Proof.Machine.execCancelEscort k f s
  | .writeOff k f => Sys2Proof.Machine.execWriteOff k f s
  | .acknowledgeOverload k f => Sys2Proof.Machine.execAcknowledgeOverload k f s
  | .resetPart k f => Sys2Proof.Machine.execResetPart k f s
  | .receiveCheckFailed k r => Sys2Proof.Machine.execReceiveCheckFailed k r s
  | .transmitStart k => Sys2Proof.Machine.execTransmitStart k s
  | .frameSent k => Sys2Proof.Machine.execFrameSent k s
  | .leadingEdge d => Sys2Proof.Machine.execLeadingEdge d s
  | .trailingEdge d => Sys2Proof.Machine.execTrailingEdge d s
  | .lineConfirmDue d => Sys2Proof.Machine.execLineConfirmDue d s
  | .stuckDue d => Sys2Proof.Machine.execStuckDue d s
  | .gantryDue => Sys2Proof.Machine.execGantryDue s
  | .bayLimit => Sys2Proof.Machine.execBayLimit s
  | .releaseDue => Sys2Proof.Machine.execReleaseDue s
  | .entryDue => Sys2Proof.Machine.execEntryDue s
  | .watchEnd => Sys2Proof.Machine.execWatchEnd s
  | .spanDue => Sys2Proof.Machine.execSpanDue s
  | .waitLimit => Sys2Proof.Machine.execWaitLimit s
  | .orderConfirmDue a r => Sys2Proof.Machine.execOrderConfirmDue a r s
  | .silenceDue k p => Sys2Proof.Machine.execSilenceDue k p s
  | .lossUntil a => Sys2Proof.Machine.execLossUntil a s
  | .reportDue => Sys2Proof.Machine.execReportDue s
  | .clearanceDue => Sys2Proof.Machine.execClearanceDue s
  | .supplyReset => Sys2Proof.Machine.execSupplyReset s
  | .lineReset => Sys2Proof.Machine.execLineReset s
  | .resetEnd csel1 csel0 => Sys2Proof.Machine.execResetEnd csel1 csel0 s

end Sys2Proof.Machine
end

