-- ==== Sys2Proof/Machine/Step.lean ====
section
/-! DEFINITION. One step: the command at the front of the queue, or, when none waits, a millisecond. -/

namespace Sys2Proof.Machine

/-- R40: a millisecond passes. While the part is held in reset the timebase stands (R179, log 2). -/
def State.tick (s : State) : State :=
  if s.inReset = true then s else { s with part := { s.part with timebase := s.part.timebase + 1 } }

/-- The command at the front of the queue is executed with the queue's rest; on an empty queue a millisecond passes
(log 2). -/
def step (s : State) : Host.Outcome State Fault Refusal :=
  match s.pending with
  | [] => .next s.tick
  | c :: cs => exec c { s with pending := cs }

/-- The part with the command that a word spells put at the front of the queue; no row of the table gives bits, so no
word spells one (log 22). -/
def State.withFetchWord (s : State) (nbits w : Nat) : State :=
  match decodeTableWord nbits w with
  | none => s
  | some c => { s with pending := c :: s.pending }

end Sys2Proof.Machine
end

