-- ==== Sys2Proof/Safety.lean ====
section
/-! DEFINITION. What the part is there to keep, as properties of a state: the pools' law (R8, R9), the bounds of the
queues (R16, R143), the deadline list's laws (R52), PART_STATE's (R124), the divert-all lines' (R133), the span
account's (R29), and the agreement of the tickets with their places, their dues, the account and the counts; and the
words the statements use: a frame that arrives, a request of the centre, what an answer and a hearing leave, and what a
move, an entry or a closing of one ticket leaves. -/

namespace Sys2Proof.Machine

/-! ## Laws -/

/-- R133: a divert-all line is released only while the part is out of reset and the approach's cause set is empty. -/
def LinesGuarded (s : State) : Prop :=
  ∀ a : Approach, (s.mode a).lineAsserted = false → s.inReset = false ∧ (s.mode a).causes = 0

/-- R16, R143: the bounds of the queues. -/
def QueuesBounded (s : State) : Prop :=
  (∀ k : LinkNo, (s.link k).queue.length ≤ Config.transmitQueueSize)
    ∧ s.table.closeQueue.length ≤ Config.closeQueueSize

/-- R9: the axle cells that the live tickets hold. -/
def cellsHeld (ts : List Ticket) : Nat := (ts.map fun t => cellsFor t.axles.length).sum

/-- R8, R9: each live ticket has a handle of its own from 1 to 60, and the free cells and the cells held make 96. -/
def PoolsSound (s : State) : Prop :=
  (s.table.tickets.map Ticket.handle).Nodup
    ∧ (∀ t ∈ s.table.tickets, 1 ≤ t.handle ∧ t.handle ≤ Config.ticketPool)
    ∧ s.table.freeCells + cellsHeld s.table.tickets = Config.cellPool

/-- R52: the deadline list holds at most one entry for each handle. -/
def DuesUnique (s : State) : Prop := (s.deadlines.map Deadline.handle).Nodup

/-- R52: the deadline list holds no entry for a free handle. -/
def DuesLive (s : State) : Prop := ∀ d ∈ s.deadlines, s.ticket d.handle ≠ none

/-- R41, R52: no entry of the deadline list stands behind one whose due is later. -/
def DuesOrdered (s : State) : Prop := s.deadlines.Pairwise fun d e => earlier e.due d.due = false

/-- R60, R82: no lane list and no nearing segment holds a ticket behind one whose weigh time is later. -/
def ListsOrdered (s : State) : Prop :=
  let ordered (hs : List Handle) : Prop := hs.Pairwise fun g h => earlier (s.weighTimeOf h) (s.weighTimeOf g) = false
  ∀ a : Approach, (∀ l : LaneNo, ordered (s.laneList a l)) ∧ ordered (s.hold a).nearing

/-- R41: two times are less than an eighth of the timebase's range apart. -/
def Near (t u : Time) : Prop := -(2 ^ 29 : Int) < (t - u).toInt ∧ (t - u).toInt < 2 ^ 29

/-- R169: every profile item is within its range, or holds the value it has after a reset. -/
def ProfileInRange (s : State) : Prop :=
  ∀ x : Item, x.inRange (s.itemValue x) = true ∨ s.itemValue x = State.reset.itemValue x

/-- R41: every due that the deadline list holds, and every time from which a due is still to be reckoned, is near
now, the speeds of the NEARING tickets are those that R18 accepts, and the profile is within its ranges. -/
def Timely (s : State) : Prop :=
  (∀ d ∈ s.deadlines, Near d.due s.now)
    ∧ (∀ t ∈ s.table.tickets, t.state = .nearing →
        (∃ w, t.weighTime = some w ∧ Near w s.now) ∧ ∃ v, t.speed = some v ∧ 50 ≤ v)
    ∧ (∀ d : LineNo, (s.line d).state = .confirming → Near (s.line d).lastCapture s.now) ∧ ProfileInRange s

/-- R124: while the part state is not RUNNING, both approaches hold PART_STATE. -/
def PartStateHeld (s : State) : Prop := s.part.state ≠ .running → ∀ a : Approach, s.holds a .partState = true

/-- R130: OVERLOAD is held on both approaches or on neither. -/
def OverloadShared (s : State) : Prop := s.holds .A .overload = s.holds .B .overload

/-- R29: the claimed mass less its forced and presumed parts is within the effective mass limit, and the claim count
less the forced count within the effective count limit. -/
def SpanRec.Lawful (r : SpanRec) : Prop :=
  r.mass ≤ r.massLimit + r.forcedMass + r.presumed ∧ r.count ≤ r.countLimit + r.forcedCount

/-! ## The law of the tickets -/

/-- A list of handles holds exactly the live tickets of a kind, each once. -/
def State.Holding (s : State) (hs : List Handle) (p : Ticket → Prop) [DecidablePred p] : Prop :=
  hs.Perm ((s.table.tickets.filter fun t => decide (p t)).map Ticket.handle)

/-- R7, R60, R68: the places of an approach, and its hold queue, hold exactly the tickets whose state and decision put
them there, its hold queue is no longer than BAY_CAPACITY, and its leaving slot is filled exactly while its bay signal
is RELEASING for the ticket in it. -/
def PlacesAgree (s : State) (a : Approach) : Prop :=
  (∀ l : LaneNo, s.Holding (s.laneList a l) fun t => t.approach = a ∧ t.state = .nearing ∧ t.lane = some l)
    ∧ s.Holding (s.hold a).nearing (fun t => t.approach = a ∧ t.state = .nearing ∧ t.decision = some .hold)
    ∧ s.Holding (s.hold a).bay (fun t => t.approach = a ∧ t.state = .bayed)
    ∧ s.Holding (s.places a).leaving.toList (fun t => t.approach = a ∧ t.state = .leavingBay)
    ∧ s.Holding (s.places a).run (fun t => t.approach = a ∧ t.state = .runningIn)
    ∧ s.Holding (s.places a).watch (fun t => t.approach = a ∧ t.state = .watched)
    ∧ (∀ i : SpanNo, s.Holding ((s.places a).spans.get i) fun t =>
        t.approach = a ∧ t.state = .crossing ∧ t.span = some i)
    ∧ (match s.signal a with
        | .idle => (s.places a).leaving = none
        | .releasing h _ => (s.places a).leaving = some h)
    ∧ (s.hold a).bay.length + (s.hold a).nearing.length ≤ s.profile.bayCapacity.get a

/-- R3, R6, R7: the origins, the decisions and the flags that a ticket of a state can hold. -/
def Ticket.DecisionAgrees (t : Ticket) : Prop :=
  (match t.state with
    | .nearing => t.origin = .weighed ∧ t.decision ≠ none ∧ t.has .overdue = false
        ∧ (t.has .countermanded = true → t.decision = some .divert)
    | .bayed => t.origin = .weighed ∧ t.decision = some .hold ∧ t.has .countermanded = false
    | .leavingBay => t.origin = .weighed ∧ (t.decision = some .pass ∨ t.decision = some .divert)
        ∧ t.has .countermanded = false
    | .runningIn => t.origin ≠ .intruder ∧ t.decision = some .pass
    | .watched => t.origin = .weighed ∧ t.decision = some .divert
    | .crossing => t.origin = .intruder ↔ t.decision = none
    | .escortWait => t.origin = .escort ∧ t.decision = none)
  ∧ (t.has .violation = true ∨ t.has .stalled = true → t.state = .crossing)

/-- R4, R7: whether a ticket that is not CROSSING holds claims. -/
def Ticket.claimsAll (t : Ticket) : Bool :=
  match t.state with
  | .nearing => decide (t.decision = some .pass) || (decide (t.decision = some .divert) && t.has .countermanded)
  | .bayed => false
  | .leavingBay => decide (t.decision = some .pass)
  | .runningIn => true
  | .watched => t.has .countermanded
  | .crossing => false
  | .escortWait => false

/-- R4, R5: a ticket has a lane while it is NEARING and a current span exactly while it is CROSSING; it claims its
current span and the spans after it then, and all spans or none before; its claims are forced exactly when it is an
intruder or a violation. -/
def Ticket.ClaimsAgree (s : State) (t : Ticket) : Prop :=
  (t.state = .nearing → t.lane ≠ none)
    ∧ (t.state = .crossing ↔ t.span ≠ none)
    ∧ t.claims = (match t.span with
        | some i => claimSet (s.spansFrom t.approach i)
        | none => if t.claimsAll = true then claimSet s.spansInUse else 0)
    ∧ (t.forced = true ↔ t.origin = .intruder ∨ t.has .violation = true)

/-- R5: the kind of due that a ticket holds. -/
def Ticket.dueKind (t : Ticket) : Option DueKind :=
  match t.state with
  | .nearing => some .gantryDue
  | .bayed => if t.has .overdue = true then none else some .bayLimit
  | .leavingBay => some .releaseDue
  | .runningIn => some .entryDue
  | .watched => some .watchEnd
  | .crossing => if t.has .stalled = true then none else some .spanDue
  | .escortWait => some .waitLimit

/-- R116, R122: the counts of FAILED records and of STUCK lines of an approach are right. -/
def CountsAgree (s : State) (a : Approach) : Prop :=
  (s.mode a).failedCount = (allRecords.filter fun r => decide (s.orderOf a r = .failed)).length
    ∧ (s.mode a).stuckCount = (allLines.filter fun d =>
        decide ((s.line d).state = .stuck) && decide ((s.line d).point.map Point.approach = some a)).length

/-- The assessed mass of a list of tickets. -/
def massOf (ts : List Ticket) : Nat := (ts.map Ticket.mass).sum

/-- R24, R26, R27, R29, R35: a span's record is the sum of what the live tickets claim on it and of the CROSSING
tickets that stand on it; its presumed load is its effective limit in CLEARING, on spans 1 to S, and 0 otherwise; its
unforced part lies within its effective limits; its overloaded field says whether it is overloaded. -/
def AccountAgrees (s : State) (i : SpanNo) : Prop :=
  let r := s.spanRec i
  let claimants := s.table.tickets.filter fun t => member t.claims i.val
  let on := s.table.tickets.filter fun t => decide (t.span = some i)
  r.mass = r.presumed + massOf claimants ∧ r.count = claimants.length
    ∧ r.forcedMass = massOf (claimants.filter Ticket.forced) ∧ r.forcedCount = (claimants.filter Ticket.forced).length
    ∧ r.onMass = massOf on ∧ r.onCount = on.length
    ∧ r.presumed = (if s.part.state = .clearing ∧ i.val < s.profile.spanCount then r.massLimit else 0)
    ∧ r.Lawful ∧ (r.overloaded = true ↔ r.massLimit < r.mass - r.presumed ∨ r.countLimit < r.count)

/-- What the tickets, the places, the dues, the pools, the account, the aspect records, the lines and the part state
have to do with one another (R4, R5, R7, R8, R9, R24, R27, R52, R55, R122, R172, R173). -/
structure Agreement (s : State) : Prop where
  pools : PoolsSound s
  places : ∀ a : Approach, PlacesAgree s a
  slot : s.Holding s.admission.escortSlot.toList fun t => t.state = .escortWait
  tickets : ∀ t ∈ s.table.tickets, t.DecisionAgrees ∧ t.ClaimsAgree s ∧ (s.dueOf t.handle).map Deadline.kind = t.dueKind
  dues : DuesUnique s ∧ DuesLive s
  account : ∀ i : SpanNo, AccountAgrees s i
  counts : ∀ a : Approach, CountsAgree s a
  unconfigured : s.part.state = .unconfigured → s.table.tickets = []
  profile : 1 ≤ s.profile.spanCount ∧ s.profile.spanCount ≤ 4
  lines : s.part.state ≠ .unconfigured → ∀ d : LineNo, s.lineFault d = none

/-! ## Frames that arrive -/

/-- R139 to R141: a valid frame from a chain position comes on a link that is not SENDING. -/
abbrev Arrives (s : State) (k : LinkNo) (f : Frame) (p : PosNo) : Prop :=
  s.inReset = false ∧ (s.link k).lineState ≠ .sending ∧ f.payload.length ≤ Config.payloadSize
    ∧ positionOf f.hop = some p ∧ p.val + 1 ≤ (s.link k).chain

/-- A request comes from the strapped centre (R150). -/
abbrev CentreAsks (s : State) (f : Frame) (l : Liveness) : Prop :=
  Arrives s s.centreLink f 0 ∧ s.entry s.centreLink 0 = .bound .centre l

/-- R139: the reception on a link has ended. -/
def State.ended (s : State) (k : LinkNo) : State :=
  { s with links := upd s.links k fun r => { r with lineState := .listening, rxBytes := [], rxFailed := none } }

/-- The reception on a link has ended, and an ANSWER with the frame's tag, to the frame's sender, has joined the
link's queue (R141, R145); at a full queue it has been dropped instead, and LINK_ERROR raised (R143). -/
def State.withAnswer (s : State) (k : LinkNo) (f : Frame) (bytes : List Byte) : State :=
  if s.hasRoom k = true then
    { s with links := upd s.links k fun r =>
        { r with lineState := .listening, rxBytes := [], rxFailed := none,
                 queue := r.queue ++
                   [{ hop := f.hop, code := 0x03, tag := f.tag, payload := bytes, resetAnswer := false }] } }
  else (s.ended k).raise .linkError none none 0

/-- R152, step 2: an entry is LIVE, with silence due now plus SILENCE_LIMIT. -/
def State.heardFrom (s : State) (k : LinkNo) (p : PosNo) (role : Role) : State :=
  s.setEntry k p (.bound role (.live (after s.now s.profile.silenceLimit)))

/-- What a request of the centre leaves of a state: its answer is queued, or dropped at a full queue, and the centre has
been heard. -/
def State.answeredCentre (s : State) (f : Frame) (bytes : List Byte) : State :=
  (s.withAnswer s.centreLink f bytes).heardFrom s.centreLink 0 .centre

/-- R151, the table of permissions: the kinds permitted to a role, by their codes. -/
def Entry.permits (e : Entry) (code : Nat) : Bool :=
  match e with
  | .unbound => false
  | .bound (.weigh _ _) _ => decide (code = 0x10 ∨ code = 0x01)
  | .bound (.gantry _) _ => decide (code = 0x03 ∨ code = 0x01)
  | .bound .centre _ => decide (code = 0x01 ∨ (0x40 ≤ code ∧ code ≤ 0x48) ∨ (0x50 ≤ code ∧ code ≤ 0x5C))

/-! ## Profile items -/

/-- R169: an item's number, and the index that names it among the items of that number. -/
def Item.numbered : Item → Nat × Nat
  | .spanCount => (1, 0)
  | .spanLength i => (2, i.val + 1)
  | .lanes a => (3, match a with | .A => 0 | .B => 1)
  | .bayCapacity a => (4, match a with | .A => 0 | .B => 1)
  | .distWeighGantry a => (5, match a with | .A => 0 | .B => 1)
  | .distGantryEntry a => (6, match a with | .A => 0 | .B => 1)
  | .distBayEntry a => (7, match a with | .A => 0 | .B => 1)
  | .lineAssign d => (8, d.val)
  | .linePolarity d => (9, d.val)
  | .clearance => (10, 0)
  | .intruderMass => (11, 0)
  | .spanLimit i => (12, i.val + 1)
  | .spanCountLimit i => (13, i.val + 1)
  | .axleLimit => (14, 0)
  | .grossLimit => (15, 0)
  | .degradedMargin => (16, 0)
  | .tolerance => (17, 0)
  | .slack => (18, 0)
  | .crawlSpeed => (19, 0)
  | .baySpeed => (20, 0)
  | .bayReleaseTime => (21, 0)
  | .maxHold => (22, 0)
  | .guard => (23, 0)
  | .skipLimit => (24, 0)
  | .confirmTime => (25, 0)
  | .silenceLimit => (26, 0)
  | .minPresence => (27, 0)
  | .stuckLimit => (28, 0)
  | .reportPeriod => (29, 0)
  | .escortWindow => (30, 0)
  | .escortWaitLimit => (31, 0)

/-- R169, R170, check 3: the values an item can be written with. LINE_ASSIGN takes 0 for UNUSED, and otherwise an
approach, a kind and a number: a number from 1 to 3 for GANTRY and BOUNDARY, 0 for the other kinds. -/
def Item.Allows (x : Item) (v : Nat) : Prop :=
  match x with
  | .spanCount => 1 ≤ v ∧ v ≤ 4
  | .spanLength _ => 10 ≤ v ∧ v ≤ 500
  | .lanes _ => 1 ≤ v ∧ v ≤ 3
  | .bayCapacity _ => v ≤ 6
  | .distWeighGantry _ => 100 ≤ v ∧ v ≤ 3000
  | .distGantryEntry _ => 50 ≤ v ∧ v ≤ 2000
  | .distBayEntry _ => 20 ≤ v ∧ v ≤ 1000
  | .lineAssign _ =>
    let kind := v / 256 % 256
    let number := v % 256
    v = 0 ∨ v / 65536 ≤ 1 ∧ ((kind = 1 ∨ kind = 4) ∧ 1 ≤ number ∧ number ≤ 3
      ∨ (kind = 2 ∨ kind = 3 ∨ kind = 5) ∧ number = 0)
  | .linePolarity _ => v ≤ 1
  | .clearance => 10 ≤ v ∧ v ≤ 1800
  | .intruderMass => 1000 ≤ v ∧ v ≤ 10000
  | .spanLimit _ => 1000 ≤ v ∧ v ≤ 200000
  | .spanCountLimit _ => 1 ≤ v ∧ v ≤ 15
  | .axleLimit => 100 ≤ v ∧ v ≤ 6500
  | .grossLimit => 1000 ≤ v ∧ v ≤ 60000
  | .degradedMargin => v ≤ 50
  | .tolerance => v ≤ 50
  | .slack => v ≤ 60000
  | .crawlSpeed => 10 ≤ v ∧ v ≤ 200
  | .baySpeed => 50 ≤ v ∧ v ≤ 300
  | .bayReleaseTime => 5 ≤ v ∧ v ≤ 300
  | .maxHold => 60 ≤ v ∧ v ≤ 3600
  | .guard => v ≤ 10000
  | .skipLimit => v ≤ 15
  | .confirmTime => 50 ≤ v ∧ v ≤ 2000
  | .silenceLimit => 200 ≤ v ∧ v ≤ 30000
  | .minPresence => 10 ≤ v ∧ v ≤ 1000
  | .stuckLimit => 5 ≤ v ∧ v ≤ 600
  | .reportPeriod => v = 0 ∨ v = 500 ∨ v = 1000 ∨ v = 2000 ∨ v = 5000
  | .escortWindow => 60 ≤ v ∧ v ≤ 1800
  | .escortWaitLimit => 60 ≤ v ∧ v ≤ 3600

/-! ## Aspect records -/

/-- R116: a record that enters or leaves FAILED is counted, and its approach's GANTRY_FAULT is to be judged. -/
def countedFailed (a : Approach) (was now : OrderState) (s : State) : Eff :=
  if was = .failed ∧ now ≠ .failed then
    { st := s.updMode a fun m => { m with failedCount := m.failedCount - 1 }, out := [.judgeGantry a] }
  else if was ≠ .failed ∧ now = .failed then
    { st := s.updMode a fun m => { m with failedCount := m.failedCount + 1 }, out := [.judgeGantry a] }
  else { st := s, out := [] }

/-- R114, R115, R118: what an order that ends in doubt leaves of its record; a record without an outstanding order is
left alone. -/
def AspectRec.unanswered {α : Type} (r : AspectRec α) : AspectRec α :=
  match r.order with
  | .awaiting _ _ => { r with confirmed := none, order := .failed, pending := none }
  | .idle => r
  | .failed => r

/-! ## Moves of one ticket -/

/-- Nothing changes but the crossing table, the deadline list, the places and the admission unit's state; and there no
other ticket's record or due. -/
def OnlyTicket (s t : State) (h : Handle) : Prop :=
  t = { s with deadlines := t.deadlines, table := t.table, admission := t.admission, tracking := t.tracking }
    ∧ t.table = { s.table with tickets := t.table.tickets }
    ∧ ∀ g, g ≠ h → t.ticket g = s.ticket g ∧ t.dueOf g = s.dueOf g

/-- A due of a kind stands at the head of the deadline list and has come, for a live ticket (R54). -/
abbrev DueComes (s : State) (kind : DueKind) (d : Deadline) (ds : List Deadline) (t : Ticket) : Prop :=
  s.inReset = false ∧ s.deadlines = d :: ds ∧ d.kind = kind ∧ hasCome s.now d.due = true
    ∧ s.ticket d.handle = some t

/-- R83: the reports of a move: each lane list of the approach whose head has changed is to be derived again, and a
leaving slot that has emptied is told. -/
def ReportsTheMove (s : State) (e : Eff) (a : Approach) : Prop :=
  (∀ l : LaneNo, e.st.laneHead a l ≠ s.laneHead a l → .deriveLane a l ∈ e.out)
    ∧ ((s.places a).leaving ≠ none → (e.st.places a).leaving = none → .leavingEmpty a ∈ e.out)

/-- R62: an approach's skip count stays with its head, and is 0 once the head has changed; the other approach's stays. -/
def SkipFollowsHead (s t : State) (a : Approach) : Prop :=
  let head (u : State) : Option Handle := ((u.hold a).bay ++ (u.hold a).nearing).head?
  (head t = head s → t.admission.skip = s.admission.skip)
    ∧ (head t ≠ head s → t.admission.skip = s.admission.skip.set a 0)

/-- R60, R82: a list as it is when a ticket of weigh time `w` has joined it, behind every ticket whose weigh time is
earlier or equal and before the first whose weigh time is later; the weigh times are those of a state. -/
def JoinsByWeighTime (s : State) (h : Handle) (w : Time) (before now : List Handle) : Prop :=
  let weighed (g : Handle) : Time := ((s.ticket g).bind Ticket.weighTime).getD 0
  ∃ hs gs, before = hs ++ gs ∧ now = hs ++ h :: gs ∧ (∀ g ∈ hs, earlier w (weighed g) = false)
    ∧ ∀ g, gs.head? = some g → earlier w (weighed g) = true

/-- R86, R87: what a transition leaves when a NEARING ticket passes the gantry at `arrival`, with lane `l` consulted:
RUNNING_IN under a confirmed PROCEED; WATCHED with decision DIVERT, SIGN_GUARD and COUNTERMANDED for a PASS under
anything else; BAYED for a HOLD; WATCHED for a DIVERT. It has left its lane list, the move is reported, and the skip
count follows the head of the hold queue. -/
def PassesGantry (s : State) (t : Ticket) (l : LaneNo) (arrival : Time) (fs : List TicketFlag) (e : Eff) : Prop :=
  let due := after (t.weighTime.getD 0) (s.stretch (travel
    (s.profile.distWeighGantry.get t.approach + s.profile.distGantryEntry.get t.approach) (t.speed.getD 0)))
  let gone (hs : List Handle) := hs.filter fun g => g != t.handle
  OnlyTicket s e.st t.handle
    ∧ (∀ j : LaneNo, e.st.laneList t.approach j = gone (s.laneList t.approach j))
    ∧ ReportsTheMove s e t.approach ∧ SkipFollowsHead s e.st t.approach
    ∧ (t.decision = some .pass → (s.lane t.approach l).confirmed = some .proceed →
        e.st.ticket t.handle = some (({ t with state := .runningIn } : Ticket).flagAll fs)
          ∧ (e.st.places t.approach).run = gone (s.places t.approach).run ++ [t.handle]
          ∧ e.st.dueOf t.handle = some ⟨due, t.handle, .entryDue⟩)
    ∧ (t.decision = some .pass → (s.lane t.approach l).confirmed ≠ some .proceed →
        e.st.ticket t.handle = some { ({ t with state := .watched } : Ticket).flagAll (fs ++ [.countermanded]) with
            decision := some .divert, reason := some .signGuard }
          ∧ (e.st.places t.approach).watch = gone (s.places t.approach).watch ++ [t.handle]
          ∧ e.st.dueOf t.handle = some ⟨due, t.handle, .watchEnd⟩)
    ∧ (t.decision = some .hold →
        e.st.ticket t.handle = some (({ t with state := .bayed } : Ticket).flagAll fs)
          ∧ (e.st.hold t.approach).bay = (s.hold t.approach).bay ++ [t.handle]
          ∧ (e.st.hold t.approach).nearing = gone (s.hold t.approach).nearing
          ∧ e.st.dueOf t.handle = some ⟨after arrival (s.profile.maxHold * 1000), t.handle, .bayLimit⟩
          ∧ .arbiter ∈ e.out)
    ∧ (t.decision = some .divert →
        e.st.ticket t.handle = some (({ t with state := .watched } : Ticket).flagAll fs)
          ∧ (e.st.places t.approach).watch = gone (s.places t.approach).watch ++ [t.handle]
          ∧ e.st.dueOf t.handle = some ⟨due, t.handle, .watchEnd⟩)

/-- R90, R91: what a transition leaves when the leaving ticket is seen or presumed out of the bay at `bayExit`: a PASS
is RUNNING_IN, any other WATCHED, and the emptied leaving slot is reported. -/
def LeavesBay (s : State) (t : Ticket) (bayExit : Time) (fs : List TicketFlag) (e : Eff) : Prop :=
  let due := after bayExit (s.stretch (travel (s.profile.distBayEntry.get t.approach) s.profile.baySpeed))
  OnlyTicket s e.st t.handle
    ∧ (e.st.places t.approach).leaving ≠ some t.handle
    ∧ ((s.places t.approach).leaving = some t.handle → .leavingEmpty t.approach ∈ e.out)
    ∧ (t.decision = some .pass →
        e.st.ticket t.handle = some (({ t with state := .runningIn } : Ticket).flagAll fs)
          ∧ (e.st.places t.approach).run.getLast? = some t.handle
          ∧ e.st.dueOf t.handle = some ⟨due, t.handle, .entryDue⟩)
    ∧ (t.decision ≠ some .pass →
        e.st.ticket t.handle = some (({ t with state := .watched } : Ticket).flagAll fs)
          ∧ (e.st.places t.approach).watch.getLast? = some t.handle
          ∧ e.st.dueOf t.handle = some ⟨due, t.handle, .watchEnd⟩)

/-- R83: the places of an approach when one of its tickets has left its place for the tail of a span's list. -/
def Places.movedOnto (p : Places) (h : Handle) (i : SpanNo) : Places :=
  let gone (hs : List Handle) := hs.filter fun g => g != h
  { lanes := p.lanes.map gone, leaving := if p.leaving = some h then none else p.leaving, run := gone p.run,
    watch := gone p.watch, spans := upd (p.spans.map gone) i fun hs => hs ++ [h] }

/-- R27, R93: what a transition leaves when a ticket comes onto a span at `entry`: its record is `new`, it has left its
place and stands at the tail of the span's list, with its SPAN_DUE, and in the span's on-span figures beside what
`account` gives; no other ticket's record or due changes. -/
def Enters (s : State) (e : Eff) (i : SpanNo) (entry : Time) (new : Ticket) (account : SpanNo → SpanRec) : Prop :=
  e.st.ticket new.handle = some new
    ∧ e.st.tracking = s.tracking.set new.approach ((s.places new.approach).movedOnto new.handle i)
    ∧ e.st.dueOf new.handle
        = some ⟨after entry (travel (s.profile.spanLength.get i) s.profile.crawlSpeed), new.handle, .spanDue⟩
    ∧ (∀ j, e.st.spanRec j = if j = i then
          { account j with onMass := (account j).onMass + new.mass, onCount := (account j).onCount + 1 }
        else account j)
    ∧ ∀ g, g ≠ new.handle → e.st.ticket g = s.ticket g ∧ e.st.dueOf g = s.dueOf g

/-- The record of a ticket that has become CROSSING on a span, with flags set. -/
def Ticket.crossingOn (t : Ticket) (i : SpanNo) (fs : List TicketFlag) : Ticket :=
  ({ t with state := .crossing, span := some i } : Ticket).flagAll fs

/-- R34, R35: a span's record when a forced claim of mass m has been placed on it. -/
def SpanRec.withForced (r : SpanRec) (m : Nat) : SpanRec :=
  let r := { r with mass := r.mass + m, count := r.count + 1, forcedMass := r.forcedMass + m,
                    forcedCount := r.forcedCount + 1 }
  { r with overloaded := decide (r.massLimit < r.mass - r.presumed ∨ r.countLimit < r.count) }

/-- R95, R100, R11: what is left by an intruder of an approach on a span, with forced claims on `spans`. With a free
handle a ticket is made on the lowest one; with none no ticket is made and approach mode control is told. Either way
INTRUSION is raised, with the ticket's handle or 0, and counted. -/
def MakesIntruder (s : State) (e : Eff) (a : Approach) (i : SpanNo) (captured : Time) (spans : List SpanNo) : Prop :=
  (∀ h, s.lowestFree = some h →
    Enters s e i captured
        { intruderTicket h a s.profile.intruderMass i with claims := claimSet spans, forced := true }
        (fun j => if j ∈ spans then (s.spanRec j).withForced s.profile.intruderMass else s.spanRec j)
      ∧ e.st.table.intrusions = countUp s.table.intrusions ∧ e.st.table.freeCells = s.table.freeCells
      ∧ (.overloaded ∈ e.out ↔ ∃ j ∈ spans, (s.spanRec j).overloaded = false
          ∧ ((s.spanRec j).withForced s.profile.intruderMass).overloaded = true)
      ∧ ∃ u : State, e.st = { u.raise .intrusion (some a) (some i) h with
          table := { u.table with intrusions := countUp s.table.intrusions } })
  ∧ (s.lowestFree = none →
    let raised := s.raise .intrusion (some a) (some i) 0
    e = { st := { raised with table := { raised.table with intrusions := countUp s.table.intrusions } },
          out := [.unticketedIntruder a] })

/-- R13: the places of an approach without a ticket. -/
def Places.left (p : Places) (h : Handle) : Places :=
  let gone (hs : List Handle) := hs.filter fun g => g != h
  { lanes := p.lanes.map gone, leaving := if p.leaving = some h then none else p.leaving, run := gone p.run,
    watch := gone p.watch, spans := p.spans.map gone }

/-- R13 to R16, R32: what a closing leaves: no record and no due of the ticket; its summary in the close queue, or
counted as lost, with CLOSE_LOST raised for its approach and handle; its cells free; one claim fewer on every span it
claimed, and, unless the part is in CLEARING, its mass; the ticket out of its place, its hold queue and the escort
slot, with the reports of that; every other ticket's record and due as they were; the reports of the closing, with the
one that no ticket is live exactly when it was the only one; and nothing else changed but for the links and the event
summary. -/
def Closes (s : State) (t : Ticket) (outcome : CloseOutcome) (e : Eff) : Prop :=
  e.st.ticket t.handle = none ∧ e.st.dueOf t.handle = none
    ∧ (s.table.closeQueue.length < Config.closeQueueSize →
        e.st.table.closeQueue = s.table.closeQueue ++ [t.summary outcome s.now]
          ∧ e.st.table.closeLost = s.table.closeLost)
    ∧ (¬ s.table.closeQueue.length < Config.closeQueueSize →
        e.st.table.closeQueue = s.table.closeQueue ∧ e.st.table.closeLost = countUp s.table.closeLost
          ∧ ∃ u : State, e.st = { u.raise .closeLost (some t.approach) none t.handle with table := e.st.table })
    ∧ e.st.table.freeCells = s.table.freeCells + cellsFor t.axles.length
    ∧ (∀ i, (e.st.spanRec i).count
        = if member t.claims i.val = true then (s.spanRec i).count - 1 else (s.spanRec i).count)
    ∧ (s.part.state ≠ .clearing → ∀ i, (e.st.spanRec i).mass
        = if member t.claims i.val = true then (s.spanRec i).mass - t.mass else (s.spanRec i).mass)
    ∧ (∀ g, g ≠ t.handle → e.st.ticket g = s.ticket g ∧ e.st.dueOf g = s.dueOf g)
    ∧ .poolReport ∈ e.out ∧ (t.claims ≠ 0 → .arbiter ∈ e.out) ∧ (t.origin = .escort → .arbiter ∈ e.out)
    ∧ (.noLiveTicket ∈ e.out ↔ ∀ u ∈ s.table.tickets, u.handle = t.handle)
    ∧ e.st.tracking = s.tracking.set t.approach ((s.places t.approach).left t.handle) ∧ ReportsTheMove s e t.approach
    ∧ e.st.admission = { s.admission with
        hold := s.admission.hold.set t.approach
          { bay := (s.hold t.approach).bay.filter fun g => g != t.handle,
            nearing := (s.hold t.approach).nearing.filter fun g => g != t.handle },
        skip := e.st.admission.skip,
        escortSlot := if s.admission.escortSlot = some t.handle then none else s.admission.escortSlot }
    ∧ SkipFollowsHead s e.st t.approach
    ∧ e.st.table = { s.table with
        tickets := e.st.table.tickets, freeCells := e.st.table.freeCells, closeQueue := e.st.table.closeQueue,
        closeLost := e.st.table.closeLost }
    ∧ e.st = { s with
        links := e.st.links, deadlines := e.st.deadlines, table := e.st.table, account := e.st.account,
        admission := e.st.admission, tracking := e.st.tracking,
        centre := { s.centre with summary := e.st.centre.summary } }

/-! ## Approach modes -/

/-- R75: a NEARING ticket of an approach that is countermanded: a PASS is flagged COUNTERMANDED, a PASS and a HOLD go
to diversion. -/
def Ticket.turnedAway (t : Ticket) : Ticket :=
  if t.decision = some .pass then
    ({ t with decision := some .divert, reason := some .approachRestricted } : Ticket).flag .countermanded
  else if t.decision = some .hold then { t with decision := some .divert, reason := some .approachRestricted }
  else t

/-- R131, steps 1 and 2, R75, R62: an approach is restricted: its divert-all line is asserted, its NEARING tickets are
countermanded, its nearing segment is empty, and its skip count is 0 if that has changed its head. -/
def State.restricted (s : State) (a : Approach) : State :=
  let q := s.hold a
  { s with
    modes := s.modes.set a { s.mode a with lineAsserted := true },
    table := { s.table with
      tickets := s.table.tickets.map fun t => if t.approach = a ∧ t.state = .nearing then t.turnedAway else t },
    admission := { s.admission with
      hold := s.admission.hold.set a { bay := q.bay, nearing := [] },
      skip := if (q.bay ++ q.nearing).head? = q.bay.head? then s.admission.skip else s.admission.skip.set a 0 } }

/-- R131: an approach enters DIVERT_ALL: it is restricted, and then every lane in use is derived again (in this order
by the model's choice, log 6). -/
def entersDivertAll (a : Approach) (s : State) : Eff := Eff.each [0, 1, 2] (deriveLane a) (s.restricted a)

/-- R132: an approach becomes OPEN: its divert-all line is released, out of reset, every lane in use is derived again,
and then the arbiter is to run (in this order by the model's choice, log 6). -/
def becomesOpen (a : Approach) (s : State) : Eff :=
  let e := Eff.each [0, 1, 2] (deriveLane a) { s with modes := s.modes.set a { s.mode a with lineAsserted := s.inReset } }
  { st := e.st, out := e.out ++ [.arbiter] }

/-- R123, R134: a cause joins both sets in the one change; an approach whose set was empty then enters DIVERT_ALL, A
before B by the model's choice (log 6). No event is raised. -/
def addedOnBoth (c : Cause) (s : State) : Eff :=
  let joined (m : Mode) : Mode := { m with causes := m.causes ||| BitVec.twoPow 8 c.index }
  let entered (a : Approach) (u : State) : Eff :=
    if (s.mode a).causes = 0 then entersDivertAll a u else { st := u, out := [] }
  (entered .A { s with modes := ⟨joined s.modes.A, joined s.modes.B⟩ }).bind (entered .B)

/-- R123, R134: a cause leaves both sets in the one change; an approach whose set it was alone then becomes OPEN, A
before B by the model's choice (log 6). -/
def removedFromBoth (c : Cause) (s : State) : Eff :=
  let left (m : Mode) : Mode := { m with causes := m.causes &&& ~~~(BitVec.twoPow 8 c.index) }
  let opened (a : Approach) (u : State) : Eff :=
    if (s.mode a).causes = BitVec.twoPow 8 c.index then becomesOpen a u else { st := u, out := [] }
  (opened .A { s with modes := ⟨left s.modes.A, left s.modes.B⟩ }).bind (opened .B)

/-! ## Unbinding -/

/-- R157, steps 1 to 3, R118: what the unbinding of a position leaves: nothing of an unbound one; an unbound entry
otherwise, with WEIGH_SILENT judged after a weigh station, and after a gantry every outstanding order of its approach
FAILED, with the confirmed aspect UNKNOWN and no pending aspect, counted (R122) and reported (R116) each, and
GANTRY_FAULT judged. -/
def Unbinds (s : State) (k : LinkNo) (q : PosNo) (t : State) : Prop :=
  let gone := s.setEntry k q .unbound
  let awaiting (a : Approach) : Nat := (allRecords.filter fun r => match s.orderOf a r with
    | .awaiting _ _ => true
    | .idle => false
    | .failed => false).length
  (s.entry k q = .unbound → t = s) ∧ (∀ l, s.entry k q = .bound .centre l → t = gone)
    ∧ (∀ a lanes l, s.entry k q = .bound (.weigh a lanes) l → t = settle { st := gone, out := [.judgeWeigh a] })
    ∧ ∀ a l, s.entry k q = .bound (.gantry a) l →
      ∃ e, t = settle e ∧ e.st = { gone with
          aspects := e.st.aspects,
          modes := s.modes.set a { s.mode a with failedCount := (s.mode a).failedCount + awaiting a } }
        ∧ (∀ j, e.st.lane a j = (s.lane a j).unanswered) ∧ e.st.bay a = (s.bay a).unanswered
        ∧ (∀ b, b ≠ a → e.st.aspects.get b = s.aspects.get b)
        ∧ e.out = List.replicate (awaiting a + 1) (.judgeGantry a)

end Sys2Proof.Machine
end

