-- ==== Sys2Proof/Certificates/Slice0/Obligations.lean ====
section
/-! DEFINITION. The statements for the provers. -/

open Sys2Proof Sys2Proof.Machine

/-! ## The queue of commands and the step -/

/-- The step executes the command at the front of the queue with the queue's rest; that the events wait in one queue is
the model's choice (log 1). On an empty queue a millisecond passes, unless the part is held in reset (the model's
choice, log 2): the timebase rises by one, wrapping (R40), and nothing else changes. What a command's transition reports
is settled: first its reports are taken one by one, in the order they were made, each with what follows from it before
the next, but for the order attempts, which are left; these are then made, those of one approach in the order lane 1,
lane 2, lane 3, bay signal, whatever led to them (R111), and those of one record as they came; and what follows from
them is settled in its turn. That the reports are taken in this order is the model's deduction (log 4); that they follow
from one another at most 1024 deep (log 5), and that approach A's attempts come before approach B's (log 6), are its
choices. One transition for each of a list is one after another, with their reports in that order. -/
def Obligations.StepExecutesTheFrontCommand : Prop :=
  (∀ (c : Instr) (cs : List Instr) (s : State), s.pending = c :: cs → step s = exec c { s with pending := cs })
    ∧ (∀ s : State, s.pending = [] →
        step s = .next (if s.inReset = true then s
          else { s with part := { s.part with timebase := s.part.timebase + 1 } }))
    ∧ (∀ s : State, settle { st := s, out := [] } = s)
    ∧ (∀ e : Eff, settle e = settleWithin 1024 e ∧ settleWithin 0 e = e.st)
    ∧ (∀ (n : Nat) (e : Eff),
        let left := Eff.each e.out (handle 1024) e.st
        settleWithin (n + 1) e
          = if left.out = [] then left.st else settleWithin n (Eff.each (inAttemptOrder left.out) act left.st))
    ∧ (∀ (n : Nat) (g : Signal) (s : State), handle (n + 1) g s
        = if g.attempts = none then Eff.each (act g s).out (handle n) (act g s).st else { st := s, out := [g] })
    ∧ (∀ (g : Signal) (s : State), handle 0 g s = { st := s, out := [] })
    ∧ (∀ gs : List Signal, inAttemptOrder gs = [Approach.A, .B].flatMap fun a =>
        [RecordId.lane 0, .lane 1, .lane 2, .bay].flatMap fun r => gs.filter fun g => decide (g.attempts = some (a, r)))
    ∧ (∀ (g : Signal) (a : Approach), (g.attempts = some (a, .bay) ↔ ∃ x h, g = .attemptBay a x h)
        ∧ ∀ l, g.attempts = some (a, .lane l) ↔ ∃ x h, g = .attemptLane a l x h)
    ∧ (∀ (e : Eff) (f : State → Eff), e.bind f = { st := (f e.st).st, out := e.out ++ (f e.st).out })
    ∧ ∀ (α : Type) (x : α) (xs : List α) (f : α → State → Eff) (s : State),
        Eff.each [] f s = { st := s, out := [] } ∧ Eff.each (x :: xs) f s = (f x s).bind (Eff.each xs f)

/-- Every command completes, in every state: that none stops the part is the model's deduction (log 21); and none
touches the queue of the commands that wait. -/
def Obligations.EveryCommandCompletes : Prop :=
  ∀ (c : Instr) (s : State), ∃ t, exec c s = .next t ∧ t.pending = s.pending

/-! ## Time -/

/-- R41, R42: a due has come when the wrapping difference of the timebase less the due is less than half the range, and
one due is earlier than another when the difference of the other less it is positive; travel and stretch are rounded
down; with the manual's examples. -/
def Obligations.TimesAreComparedAndRoundedDown : Prop :=
  (∀ now due : Time, hasCome now due = true ↔ (now - due).toNat < 2 ^ 31)
    ∧ (∀ d1 d2 : Time, earlier d1 d2 = true ↔ 0 < (d2 - d1).toNat ∧ (d2 - d1).toNat < 2 ^ 31)
    ∧ hasCome 4294967000#32 1500#32 = false ∧ hasCome 1500#32 1500#32 = true
    ∧ (∀ d v : Nat, 0 < v → travel d v * v ≤ d * 36000 ∧ d * 36000 < travel d v * v + v)
    ∧ (∀ (s : State) (t : Nat), s.stretch t = t * (100 + s.profile.tolerance) / 100 + s.profile.slack)
    ∧ travel 600 720 = 30000
    ∧ (∀ s : State, s.profile.tolerance = 20 → s.profile.slack = 5000 → s.stretch 30000 = 41000)

/-! ## Links -/

/-- R140: the checks in their order, each reached only when the ones before it pass; the CRC of the nine characters
"123456789" is 0x29B1; and RECEIVE_CHECK_FAILED: on a link that is not SENDING, the failed check alone is counted, the
link returns to LISTENING, and LINK_ERROR is raised with no approach, span or ticket. -/
def Obligations.FailedFramesAreCountedOnce : Prop :=
  (∀ (chain : Nat) (bs : List Byte) (framing noise long : Bool),
    let bad : Prop := long = true ∨ bs.length < 6 ∨ 70 < bs.length ∨ 64 < lengthField bs
      ∨ bs.length ≠ 6 + lengthField bs
    let wrong : Prop := bs.drop (bs.length - 2) ≠ be16 (crc (bs.take (bs.length - 2)))
    let hop := (bs.getD 0 0).toNat
    let found := firstFailedCheck chain bs framing noise long
    (framing = true → found = some .framing)
      ∧ (framing = false → noise = true → found = some .noise)
      ∧ (framing = false → noise = false → bad → found = some .length)
      ∧ (framing = false → noise = false → ¬ bad → wrong → found = some .check)
      ∧ (framing = false → noise = false → ¬ bad → ¬ wrong → (hop = 0 ∨ chain < hop) → found = some .strayHop)
      ∧ (framing = false → noise = false → ¬ bad → ¬ wrong → 1 ≤ hop → hop ≤ chain → found = none))
    ∧ crc [0x31, 0x32, 0x33, 0x34, 0x35, 0x36, 0x37, 0x38, 0x39] = 0x29B1#16
    ∧ ∀ (k : LinkNo) (r : Reception) (s : State) (c : RxCheck),
        s.inReset = false → (s.link k).lineState ≠ .sending →
        firstFailedCheck (s.link k).chain (r.bytes.take 70) r.framing r.noise (decide (70 < r.bytes.length))
          = some c →
        exec (.receiveCheckFailed k r) s = .next
          (({ s with links := upd s.links k fun l =>
              let l := { l with lineState := .listening, rxBytes := [], rxFailed := none }
              match c with
              | .framing => { l with framing := countUp l.framing }
              | .noise => { l with noise := countUp l.noise }
              | .length => { l with length := countUp l.length }
              | .check => { l with check := countUp l.check }
              | .strayHop => { l with strayHop := countUp l.strayHop } } : State).raise .linkError none none 0)

/-- R160, R161: raising an event sets its flag; while it is unmasked and the centre LIVE its ALERT of five fields joins
the queue of the centre's link, or, where that is full, the LINK_ERROR flag is set; nothing else changes. R143: an
answer that its link has no room for is dropped, and LINK_ERROR is raised. -/
def Obligations.RaisedEventSetsItsFlagAndAlerts : Prop :=
  ∀ (s : State) (e : Event) (a : Option Approach) (i : Option SpanNo) (h : Handle),
    let flagged : State := { s with centre := { s.centre with
      summary := s.centre.summary ||| BitVec.twoPow 12 e.index } }
    let alert : TxFrame := TxFrame.mk 1 0x30 0
      (one (e.index + 1) ++ one (match a with | none => 2 | some .A => 0 | some .B => 1)
        ++ one (match i with | none => 0 | some i => i.val + 1) ++ one h ++ timeBytes s.part.timebase)
      false
    let offered : Prop := s.centre.mask.getLsbD e.index = false ∧ s.centreLive = true
    (¬ offered → s.raise e a i h = flagged)
      ∧ (offered → s.hasRoom s.centreLink = true →
          s.raise e a i h = { flagged with
            links := upd s.links s.centreLink fun l => { l with queue := l.queue ++ [alert] } })
      ∧ (offered → s.hasRoom s.centreLink = false →
          s.raise e a i h = { flagged with
            centre := { flagged.centre with summary := flagged.centre.summary ||| BitVec.twoPow 12 9 } })
      ∧ ∀ k f bytes, s.hasRoom k = false → s.answer k f bytes = s.raise .linkError none none 0

/-- TRANSMIT_START and FRAME_SENT: a LISTENING link with a frame to send becomes SENDING; when the frame has been sent
it leaves the queue and the link is LISTENING again; nothing else changes. -/
def Obligations.FramesAreSentInOrder : Prop :=
  (∀ (k : LinkNo) (s : State), s.inReset = false → (s.link k).lineState = .listening → (s.link k).queue ≠ [] →
    exec (.transmitStart k) s
      = .next { s with links := upd s.links k fun r => { r with lineState := .sending } })
    ∧ (∀ (k : LinkNo) (s : State) (x : TxFrame) (xs : List TxFrame), s.inReset = false →
        (s.link k).lineState = .sending → (s.link k).queue = x :: xs → x.resetAnswer = false →
        exec (.frameSent k) s
          = .next { s with links := upd s.links k fun r => { r with lineState := .listening, queue := xs } })

/-- KEEPALIVE (R158) from a bound position, whatever its role and in every part state: DONE with the status alone, or
BAD_VALUE when the payload is not empty; UNKNOWN_KIND (R151) from any position: the answer UNKNOWN_KIND with the status
alone. Then the hearing of the sender, and no other effect. An answer at a full queue is dropped, with LINK_ERROR
(R143). -/
def Obligations.KeepaliveAndUnknownKindAreAnswered : Prop :=
  ∀ (k : LinkNo) (f : Frame) (p : PosNo) (s : State), Arrives s k f p →
    (∀ role l, s.entry k p = .bound role l → exec (.keepalive k f) s
        = .next ((s.withAnswer k f (if f.payload = [] then [0] else [4])).hear k p none))
      ∧ ∀ code, exec (.unknownKind k code f) s = .next ((s.withAnswer k f [2]).hear k p none)

/-- R151: a kind that the sender's role may not send is answered NOT_PERMITTED, with the status alone, and has no
other effect but the hearing; an ANSWER from a position that is no gantry is discarded. CHAIN SET and unknown kinds
are taken from every position. -/
def Obligations.KindsNotPermittedAreRefused : Prop :=
  (∀ (i : Instr) (k : LinkNo) (code : Byte) (f : Frame) (p : PosNo) (s : State),
    frameOfCommand i = some (k, code, f) → (∀ c, i ≠ .unknownKind k c f) → i ≠ .chainSet k f → i ≠ .answer k f →
    Arrives s k f p → (s.entry k p).permits code.toNat = false →
    exec i s = .next ((s.withAnswer k f [3]).hear k p none))
    ∧ ∀ (k : LinkNo) (f : Frame) (p : PosNo) (s : State), Arrives s k f p → (s.entry k p).permits 3 = false →
        exec (.answer k f) s = .next ((s.ended k).hear k p none)

/-- R152, for every frame command: whatever a valid frame from a bound position does, its entry is LIVE afterwards,
with the silence due its arrival plus SILENCE_LIMIT as it then stands, and keeps its role. The hearing itself: an
unbound position has none; a centre's and a weigh station's make the entry LIVE, and a weigh station's change from
SILENT is reported (a gantry's hearing is GantryAnswersEndTheirOrders'). -/
def Obligations.EveryValidFrameIsAHearing : Prop :=
  ∀ (i : Instr) (k : LinkNo) (code : Byte) (f : Frame) (p : PosNo) (s : State) (role : Role) (l : Liveness),
    frameOfCommand i = some (k, code, f) → Arrives s k f p → s.entry k p = .bound role l →
    (role = .centre → k = s.centreLink ∧ p = 0) →
    (∃ t, exec i s = .next t
      ∧ t.entry k p = .bound role (.live (after s.now t.profile.silenceLimit)))
    ∧ ∀ (save : Option RecordId) (u : State),
      (u.entry k p = .unbound → u.hear k p save = u)
      ∧ (∀ l, u.entry k p = .bound .centre l → u.hear k p save = u.heardFrom k p .centre)
      ∧ ∀ a lanes l, u.entry k p = .bound (.weigh a lanes) l → u.hear k p save = settle
          { st := u.heardFrom k p (.weigh a lanes), out := if l = .silent then [.judgeWeigh a] else [] }

/-- CHAIN SET (R142): taken, it sets the chain length; a shortened chain unbinds every entry above it (R118, R157), from
the lowest position up, one settled before the next, which is the model's choice (log 30); otherwise it is discarded; it
is never answered, and it is a hearing. -/
def Obligations.ChainSetSetsTheChain : Prop :=
  ∀ (k : LinkNo) (f : Frame) (p : PosNo) (s : State), Arrives s k f p →
    let n := byteAt f.payload 0
    let taken : Prop := f.payload.length = 1 ∧ 1 ≤ n ∧ n ≤ 4 ∧ p.val + 1 ≤ n
    (taken → (s.link k).chain ≤ n →
      exec (.chainSet k f) s = .next
        (({ s.ended k with links := upd (s.ended k).links k fun r => { r with chain := n } } : State).hear k p none))
      ∧ (taken → n < (s.link k).chain →
          ∃ t, exec (.chainSet k f) s = .next t ∧ (t.link k).chain = n
            ∧ (∀ q : PosNo, n < q.val + 1 → t.entry k q = .unbound)
            ∧ ∃ u : Nat → State, t = (u 4).hear k p none
              ∧ u 0 = { s.ended k with links := upd (s.ended k).links k fun r => { r with chain := n } }
              ∧ ∀ q : PosNo, (q.val + 1 ≤ n → u (q.val + 1) = u q.val)
                ∧ (n < q.val + 1 → Unbinds (u q.val) k q (u (q.val + 1))))
      ∧ (¬ taken → exec (.chainSet k f) s = .next ((s.ended k).hear k p none))

/-! ## Gantry answers and orders -/

/-- Order attempts (R111, R112, R121, R146). An order fails without a bound and LIVE gantry, and touches no link;
otherwise its link takes the first tag from the counter on that no outstanding order holds, and moves the counter past
it, and the order fails if the queue is full and is queued if it is not. Which orders are outstanding on a link
(heldTags) is the model's deduction (log 18). A queued order makes its record AWAITING, without a pending aspect; a
failed one makes it FAILED, a bay signal's with the confirmed aspect UNKNOWN as well (the model's deduction, log 31). A
new wanted aspect calls for an attempt, with the lane's head (R120) or the release state's handle (R121), or is pending
while AWAITING; one wanted already changes nothing. An attempt that is called for is made, or is pending where an
earlier one has left the record AWAITING; a pending or FAILED record's (attemptLane, attemptBay) carries the head or the
handle as it stands then. -/
def Obligations.OrdersAreAttemptedOrPending : Prop :=
  (∀ (a : Approach) (x : TxKind) (payload : List Byte) (s : State),
    (s.gantryOf a = none → offerOrder a x payload s = (s, none))
      ∧ ∀ (k : LinkNo) (p : PosNo), s.gantryOf a = some (k, p) →
        ((s.entry k p).isLive = false → offerOrder a x payload s = (s, none))
        ∧ ((s.entry k p).isLive = true →
          ∃ n : Nat, ∃ tag : Byte, tag = (s.link k).tagCounter + BitVec.ofNat 8 n ∧ tag ∉ s.heldTags k
            ∧ (∀ m < n, (s.link k).tagCounter + BitVec.ofNat 8 m ∈ s.heldTags k)
            ∧ (s.hasRoom k = false → offerOrder a x payload s
                = ({ s with links := upd s.links k fun r => { r with tagCounter := tag + 1 } }, none))
            ∧ (s.hasRoom k = true → offerOrder a x payload s
                = ({ s with links := upd s.links k fun r =>
                    { r with tagCounter := tag + 1,
                             queue := r.queue ++ [{ hop := BitVec.ofNat 8 (p.val + 1), code := x.code, tag := tag,
                                                    payload := payload, resetAnswer := false }] } }, some tag))))
    ∧ (∀ (a : Approach) (l : LaneNo) (x : Aspect) (h : Handle) (s : State),
      let r := s.lane a l
      let head : Handle := (s.laneHead a l).getD 0
      let offer := offerOrder a .aspectOrder (one (l.val + 1) ++ one x.code ++ one h) s
      let r' : AspectRec Aspect := match offer.2 with
        | some tag => { r with ordered := some x, order := .awaiting tag (after s.now s.profile.confirmTime), pending := none }
        | none => { r with order := .failed }
      let attempt := countedFailed a r.order r'.order (offer.1.setLane a l r')
      let free : Prop := r.order = .idle ∨ r.order = .failed
      (h = head → attemptLane a l x s = attempt)
        ∧ (free → act (.attemptLane a l x h) s = attempt)
        ∧ ((∃ tag due, r.order = .awaiting tag due) →
            act (.attemptLane a l x h) s = { st := s.setLane a l { r with pending := some x }, out := [] })
        ∧ (r.wanted = x → wantLane a l x s = { st := s, out := [] })
        ∧ (r.wanted ≠ x → (∃ tag due, r.order = .awaiting tag due) →
            wantLane a l x s = { st := s.setLane a l { r with wanted := x, pending := some x }, out := [] })
        ∧ (r.wanted ≠ x → free →
            wantLane a l x s = { st := s.setLane a l { r with wanted := x }, out := [.attemptLane a l x head] }))
    ∧ ∀ (a : Approach) (x : BayAspect) (h : Handle) (s : State),
      let r := s.bay a
      let handle : Handle := match s.admission.baySignal.get a with | .idle => 0 | .releasing h _ => h
      let offer := offerOrder a .bayOrder (one x.code ++ one h) s
      let r' : AspectRec BayAspect := match offer.2 with
        | some tag => { r with ordered := some x, order := .awaiting tag (after s.now s.profile.confirmTime), pending := none }
        | none => { r with order := .failed, confirmed := none }
      let attempt := countedFailed a r.order r'.order (offer.1.setBay a r')
      let free : Prop := r.order = .idle ∨ r.order = .failed
      (h = handle → attemptBay a x s = attempt)
        ∧ (free → act (.attemptBay a x h) s = attempt)
        ∧ ((∃ tag due, r.order = .awaiting tag due) →
            act (.attemptBay a x h) s = { st := s.setBay a { r with pending := some x }, out := [] })
        ∧ (r.wanted = x → wantBay a x s = { st := s, out := [] })
        ∧ (r.wanted ≠ x → (∃ tag due, r.order = .awaiting tag due) →
            wantBay a x s = { st := s.setBay a { r with wanted := x, pending := some x }, out := [] })
        ∧ (r.wanted ≠ x → free →
            wantBay a x s = { st := s.setBay a { r with wanted := x }, out := [.attemptBay a x handle] })

/-- R107 to R109, R111, R112: the report that a lane is to be derived again has deriveLane act on it, and what a lane
in use is then made to want: DIVERT on an approach that is not OPEN; on an OPEN one REST for an empty list, TO_BAY and
DIVERT for a HOLD and a DIVERT head; for a PASS head PROCEED, when it is wanted already, or when the nominal gantry
arrival lies at least GUARD after now; a later switch is refused, and the head's demotion is called. A wish that is new
calls for an attempt, or is pending while AWAITING, as OrdersAreAttemptedOrPending says of wantLane. A lane not in use
is left alone. -/
def Obligations.LanesWantWhatTheirHeadsDecide : Prop :=
  ∀ (a : Approach) (l : LaneNo) (s : State),
    let e := deriveLane a l s
    let open' : Prop := (s.mode a).causes = 0
    let wants (x : Aspect) : Prop := e = wantLane a l x s ∧ (e.st.lane a l).wanted = x
    act (.deriveLane a l) s = e
      ∧ (s.profile.lanes.get a ≤ l.val → e = Eff.of s)
      ∧ (l.val < s.profile.lanes.get a → ¬ open' → wants .divert)
      ∧ (l.val < s.profile.lanes.get a → open' → s.laneList a l = [] → wants .rest)
      ∧ (∀ h t, l.val < s.profile.lanes.get a → open' → s.laneHead a l = some h → s.ticket h = some t →
          let early : Prop := (s.profile.guard : Int) ≤ (after (t.weighTime.getD 0)
            (travel (s.profile.distWeighGantry.get t.approach) (t.speed.getD 0)) - s.now).toInt
          (t.decision = some .hold → wants .toBay)
            ∧ (t.decision = some .divert → wants .divert)
            ∧ (t.decision = some .pass → (s.lane a l).wanted = .proceed → e = Eff.of s)
            ∧ (t.decision = some .pass → (s.lane a l).wanted ≠ .proceed → early → wants .proceed)
            ∧ (t.decision = some .pass → (s.lane a l).wanted ≠ .proceed → ¬ early →
                e = { st := s, out := [.demote h] }))

/-- R113, R114, R117, R147: an ANSWER of a gantry, paired by pairedRecord (the deduction of log 18). SHOWN confirms the
ordered aspect and leaves the record IDLE; a pending aspect that is now confirmed is discarded, and one that differs is
attempted. Any other status, or none, makes the record FAILED with its confirmed aspect UNKNOWN and its pending aspect
discarded; the entry into FAILED is counted and reported, and the record does not attempt again at this hearing. An
answer that pairs with no order is counted, raises LINK_ERROR and changes no record. At a hearing of a gantry every
FAILED record in use of its approach, save the one that the frame made FAILED, attempts its wanted aspect, in the order
of R111, after the entry is LIVE and its change has been judged. -/
def Obligations.GantryAnswersEndTheirOrders : Prop :=
  (∀ (k : LinkNo) (f : Frame) (p : PosNo) (s : State) (a : Approach) (l : Liveness),
    Arrives s k f p → s.entry k p = .bound (.gantry a) l →
    let s' := s.ended k
    let failed (s : State) : State := s.updMode a fun m => { m with failedCount := m.failedCount + 1 }
    (∀ j : LaneNo, s.pairedRecord a f.tag = some (.lane j) →
      let r := s.lane a j
      let shown : AspectRec Aspect := { r with confirmed := r.ordered, order := .idle }
      (f.payload.head? = some 10#8 → (r.pending = none ∨ r.pending = r.ordered) →
        exec (.answer k f) s = .next ((s'.setLane a j { shown with pending := none }).hear k p none))
      ∧ (∀ x, f.payload.head? = some 10#8 → r.pending = some x → r.ordered ≠ some x →
        exec (.answer k f) s = .next ((settle (attemptLane a j x (s'.setLane a j shown))).hear k p none))
      ∧ (f.payload.head? ≠ some 10#8 →
        exec (.answer k f) s = .next ((settle
          { st := failed (s'.setLane a j { r with confirmed := none, order := .failed, pending := none }),
            out := [.judgeGantry a] }).hear k p (some (.lane j)))))
    ∧ (s.pairedRecord a f.tag = some .bay →
      let r := s.bay a
      let shown : AspectRec BayAspect := { r with confirmed := r.ordered, order := .idle }
      (f.payload.head? = some 10#8 → (r.pending = none ∨ r.pending = r.ordered) →
        exec (.answer k f) s = .next ((s'.setBay a { shown with pending := none }).hear k p none))
      ∧ (∀ x, f.payload.head? = some 10#8 → r.pending = some x → r.ordered ≠ some x →
        exec (.answer k f) s = .next ((settle (attemptBay a x (s'.setBay a shown))).hear k p none))
      ∧ (f.payload.head? ≠ some 10#8 →
        exec (.answer k f) s = .next ((settle
          { st := failed (s'.setBay a { r with confirmed := none, order := .failed, pending := none }),
            out := [.judgeGantry a] }).hear k p (some .bay))))
    ∧ (s.pairedRecord a f.tag = none → exec (.answer k f) s = .next
        ((({ s' with links := upd s'.links k fun r =>
            { r with strayAnswer := countUp r.strayAnswer } } : State).raise .linkError none none 0).hear k p none)))
    ∧ ∀ (k : LinkNo) (p : PosNo) (save : Option RecordId) (s : State) (a : Approach) (l : Liveness),
      s.entry k p = .bound (.gantry a) l →
      let live := settle { st := s.heardFrom k p (.gantry a), out := if l = .silent then [.judgeGantry a] else [] }
      let again (r : RecordId) (s : State) : Eff := match r with
        | .lane j => if j.val < s.profile.lanes.get a ∧ (s.lane a j).order = .failed
            then attemptLane a j (s.lane a j).wanted s else { st := s, out := [] }
        | .bay => if 0 < s.profile.bayCapacity.get a ∧ (s.bay a).order = .failed
            then attemptBay a (s.bay a).wanted s else { st := s, out := [] }
      s.hear k p save = settle (Eff.each
        ([RecordId.lane 0, .lane 1, .lane 2, .bay].filter fun r => decide (save ≠ some r)) again live)

/-- R115: when the confirm due of an outstanding order has come, the order runs out: FAILED, confirmed aspect UNKNOWN,
pending aspect discarded, counted and reported; that nothing happens before it has come is the model's choice (log 3). -/
def Obligations.UnansweredOrdersRunOut : Prop :=
  ∀ (a : Approach) (s : State) (tag : Byte) (due : Time), s.inReset = false →
    let failed (s : State) : State := s.updMode a fun m => { m with failedCount := m.failedCount + 1 }
    (∀ j : LaneNo, (s.lane a j).order = .awaiting tag due →
      exec (.orderConfirmDue a (.lane j)) s = .next (if hasCome s.now due = true then settle
        { st := failed (s.setLane a j { s.lane a j with confirmed := none, order := .failed, pending := none }),
          out := [.judgeGantry a] }
      else s))
    ∧ ((s.bay a).order = .awaiting tag due →
      exec (.orderConfirmDue a .bay) s = .next (if hasCome s.now due = true then settle
        { st := failed (s.setBay a { s.bay a with confirmed := none, order := .failed, pending := none }),
          out := [.judgeGantry a] }
      else s))

/-! ## Directory -/

/-- R153, R154: when the silence due of a LIVE entry has come, the entry is SILENT without a due, and a weigh station's
or a gantry's silence is reported; the centre's is not. Judged (R125), WEIGH_SILENT is removed when a bound and LIVE
weigh station of the approach serves every lane in use, and is added otherwise. Judged (R127), GANTRY_FAULT is removed
when the gantry of the approach is bound and LIVE and no record of it is FAILED, and is added otherwise. -/
def Obligations.SilentStationsAreJudged : Prop :=
  (∀ (k : LinkNo) (p : PosNo) (s : State) (role : Role) (due : Time), s.inReset = false →
    s.entry k p = .bound role (.live due) → hasCome s.now due = true →
    exec (.silenceDue k p) s = .next (settle
      { st := s.setEntry k p (.bound role .silent),
        out := match role with
          | .weigh a _ => [.judgeWeigh a]
          | .gantry a => [.judgeGantry a]
          | .centre => [] }))
    ∧ ∀ (a : Approach) (s : State),
      let served (l : LaneNo) : Prop := ∃ (k : LinkNo) (p : PosNo) (lanes : BitVec 3) (due : Time),
        s.entry k p = .bound (.weigh a lanes) (.live due) ∧ lanes.getLsbD l.val = true
      let allServed : Prop := ∀ l : LaneNo, l.val < s.profile.lanes.get a → served l
      (allServed → act (.judgeWeigh a) s = removeCause a .weighSilent s)
        ∧ (¬ allServed → act (.judgeWeigh a) s = addCause a .weighSilent s)
        ∧ (∀ k p due, s.gantryOf a = some (k, p) → s.entry k p = .bound (.gantry a) (.live due) →
            ((s.mode a).failedCount = 0 → act (.judgeGantry a) s = removeCause a .gantryFault s)
            ∧ ((s.mode a).failedCount ≠ 0 → act (.judgeGantry a) s = addCause a .gantryFault s))
        ∧ (∀ k p, s.gantryOf a = some (k, p) → s.entry k p = .bound (.gantry a) .silent →
            act (.judgeGantry a) s = addCause a .gantryFault s)
        ∧ ((∀ k p l, s.entry k p ≠ .bound (.gantry a) l) →
            s.gantryOf a = none ∧ act (.judgeGantry a) s = addCause a .gantryFault s)

/-- BIND STATION (R155, R156), its checks in order: BAD_VALUE for a payload that is not 7 bytes long, a field out of
its range, a WEIGH without a lane or a GANTRY with one; NOT_PERMITTED for the role CENTRE, and for the strapped
centre's position; BAD_VALUE for a position above the chain; CONFLICT where another WEIGH entry of the approach has one
of the lanes, or another entry is the gantry of the approach. Taken, it unbinds the position with every effect of that,
makes the entry SILENT in the new role, has WEIGH_SILENT or GANTRY_FAULT judged, and is then answered DONE. UNBIND
STATION (R157): BAD_VALUE for a payload that is not 2 bytes long or a field out of its range; NOT_PERMITTED for the
strapped centre's position; otherwise it unbinds the position, and is then answered DONE. An unbinding (Unbinds) leaves
an unbound position alone; a weigh station's has WEIGH_SILENT judged; a gantry's makes every outstanding order of its
approach FAILED, with the confirmed aspect UNKNOWN and no pending aspect (R118), counted and reported (R116, R122), and
has GANTRY_FAULT judged. A refused request changes nothing but for its answer and the hearing. -/
def Obligations.StationsAreBoundAndUnbound : Prop :=
  ∀ (f : Frame) (s : State) (l : Liveness), CentreAsks s f l →
    let p := f.payload
    let role := byteAt p 2
    let lane (j : LaneNo) := byteAt p (4 + j.val)
    let position : Prop := byteAt p 0 ≤ 3 ∧ 1 ≤ byteAt p 1 ∧ byteAt p 1 ≤ 4
    let valued : Prop := p.length = 7 ∧ position ∧ 1 ≤ role ∧ role ≤ 3 ∧ byteAt p 3 ≤ 1 ∧ (∀ j, lane j ≤ 1)
      ∧ (role = 1 → ∃ j, lane j = 1) ∧ (role = 2 → ∀ j, lane j = 0)
    (¬ valued → exec (.bindStation s.centreLink f) s = .next (s.answeredCentre f [4]))
      ∧ (valued → role = 3 → exec (.bindStation s.centreLink f) s = .next (s.answeredCentre f [3]))
      ∧ (¬ (p.length = 2 ∧ position) → exec (.unbindStation s.centreLink f) s = .next (s.answeredCentre f [4]))
      ∧ ∀ (k : LinkNo) (q : PosNo), byteAt p 0 = k.val → byteAt p 1 = q.val + 1 →
          let strapped : Prop := k = s.centreLink ∧ q = 0
          let above : Prop := (s.link k).chain < q.val + 1
          (∀ a : Approach, valued → role ≠ 3 → byteAt p 3 = (match a with | .A => 0 | .B => 1) →
            let new : Role := if role = 1 then .weigh a (BitVec.ofNat 3 (lane 0 + 2 * lane 1 + 4 * lane 2)) else .gantry a
            let judged : Signal := if role = 1 then .judgeWeigh a else .judgeGantry a
            let clash : Prop := ∃ (k' : LinkNo) (q' : PosNo), (k', q') ≠ (k, q)
              ∧ (role = 1 ∧ (∃ (held : BitVec 3) (x : Liveness) (j : LaneNo), s.entry k' q' = .bound (.weigh a held) x
                    ∧ held.getLsbD j.val = true ∧ lane j = 1)
                ∨ role = 2 ∧ ∃ x : Liveness, s.entry k' q' = .bound (.gantry a) x)
            (strapped → exec (.bindStation s.centreLink f) s = .next (s.answeredCentre f [3]))
            ∧ (¬ strapped → above → exec (.bindStation s.centreLink f) s = .next (s.answeredCentre f [4]))
            ∧ (¬ strapped → ¬ above → clash →
                exec (.bindStation s.centreLink f) s = .next (s.answeredCentre f [9]))
            ∧ (¬ strapped → ¬ above → ¬ clash → ∃ t u,
                exec (.bindStation s.centreLink f) s = .next t ∧ t.entry k q = .bound new .silent
                  ∧ Unbinds (s.ended s.centreLink) k q u
                  ∧ t = ((settle { st := u.setEntry k q (.bound new .silent), out := [judged] }).reply s.centreLink f
                      [0]).hear s.centreLink 0 none))
          ∧ (p.length = 2 →
            (strapped → exec (.unbindStation s.centreLink f) s = .next (s.answeredCentre f [3]))
            ∧ (¬ strapped → s.entry k q = .unbound →
                exec (.unbindStation s.centreLink f) s = .next (s.answeredCentre f [0]))
            ∧ (¬ strapped → ∃ t u, exec (.unbindStation s.centreLink f) s = .next t ∧ t.entry k q = .unbound
                ∧ Unbinds (s.ended s.centreLink) k q u
                ∧ t = (u.reply s.centreLink f [0]).hear s.centreLink 0 none))

/-! ## The crossing table -/

/-- R2: the assessed mass: a DEGRADED gross raised by the margin and rounded up, any other as reported, INTRUDER_MASS
for an intruder; the manual's two examples. -/
def Obligations.AssessedMassIsRoundedUp : Prop :=
  (∀ (h : Handle) (a : Approach) (l : LaneNo) (time : Time) (speed : Nat) (axles : List Nat) (c : Confidence)
      (margin : Nat),
    let m := (weighedTicket h a l time speed axles c margin).mass
    (c ≠ .degraded → m = axles.sum)
      ∧ (c = .degraded → axles.sum * (100 + margin) ≤ 100 * m ∧ 100 * m < axles.sum * (100 + margin) + 100))
    ∧ (∀ (h : Handle) (a : Approach) (time : Time) (speed : Nat) (axles : List Nat),
        (escortTicket h a time speed axles).mass = axles.sum)
    ∧ (∀ (h : Handle) (a : Approach) (mass : Nat) (i : SpanNo), (intruderTicket h a mass i).mass = mass)
    ∧ assessedMass (some .degraded) 3600 10 = 3960 ∧ assessedMass (some .degraded) 3615 10 = 3977

/-- R8, R10: an ordinary allocation fails with four or fewer free handles or too few cells, and otherwise takes the
lowest free handle. -/
def Obligations.OrdinaryAllocationKeepsTheReserve : Prop :=
  ∀ (s : State) (n : Nat),
    (60 - s.table.tickets.length ≤ 4 → s.ordinaryHandle n = none)
      ∧ (s.table.freeCells < (n + 2) / 3 → s.ordinaryHandle n = none)
      ∧ (4 < 60 - s.table.tickets.length → (n + 2) / 3 ≤ s.table.freeCells →
          ∃ h, s.ordinaryHandle n = some h ∧ 1 ≤ h ∧ h ≤ 60 ∧ s.ticket h = none
            ∧ ∀ g, 1 ≤ g → g < h → s.ticket g ≠ none)

/-- R57: the steps of the evaluation in order; the first whose condition holds decides. -/
def Obligations.EvaluationTakesTheFirstStepThatHolds : Prop :=
  ∀ (s : State) (t : Ticket),
    let axle : Prop := ∃ x ∈ t.axles, s.profile.axleLimit < x
    let span : Prop := ∃ i ∈ s.spansInUse, (s.spanRec i).massLimit < t.mass
    let vehicle : Prop := t.confidence ≠ some .bad ∧ ¬ axle ∧ t.mass ≤ s.profile.grossLimit ∧ ¬ span
    let wait (hold divert : Reason) : Decision × Option Reason :=
      if (s.hold t.approach).bay.length + (s.hold t.approach).nearing.length < s.profile.bayCapacity.get t.approach
      then (.hold, some hold) else (.divert, some divert)
    let empty : Prop := (s.hold t.approach).bay = [] ∧ (s.hold t.approach).nearing = []
    (t.confidence = some .bad → s.verdict t = (.divert, some .lowConfidence))
      ∧ (t.confidence ≠ some .bad → axle → s.verdict t = (.divert, some .axleOver))
      ∧ (t.confidence ≠ some .bad → ¬ axle → s.profile.grossLimit < t.mass →
          s.verdict t = (.divert, some .grossOver))
      ∧ (t.confidence ≠ some .bad → ¬ axle → t.mass ≤ s.profile.grossLimit → span →
          s.verdict t = (.divert, some .spanOver))
      ∧ (vehicle → s.isOpen t.approach = false → s.verdict t = (.divert, some .approachRestricted))
      ∧ (vehicle → s.isOpen t.approach = true → s.escortActive = true →
          s.verdict t = wait .escortActive .escortActive)
      ∧ (vehicle → s.isOpen t.approach = true → s.escortActive = false → ¬ empty →
          s.verdict t = wait .spanOver .bayFull)
      ∧ (vehicle → s.isOpen t.approach = true → s.escortActive = false → empty → s.fits t.mass = true →
          s.verdict t = (.pass, none))
      ∧ (vehicle → s.isOpen t.approach = true → s.escortActive = false → empty → s.fits t.mass = false →
          s.verdict t = wait .spanOver .bayFull)

/-- R18 and R19: the checks of a WEIGH RECORD of a weigh station, in order: the part state, the lane, the values. -/
def Obligations.WeighRecordChecksInOrder : Prop :=
  ∀ (s : State) (a : Approach) (lanes : BitVec 3) (p : List Byte),
    let lane := byteAt p 0
    let n := byteAt p 1
    let served : Prop := ∃ l : LaneNo, lane = l.val + 1 ∧ lanes.getLsbD l.val = true ∧ l.val < s.profile.lanes.get a
    let bad : Prop := p.length < 7 ∨ n < 2 ∨ 9 < n ∨ p.length ≠ 7 + 2 * n ∨ (∃ x ∈ loadsAt p 7 n, 6500 < x)
      ∨ wordAt p 5 < 50 ∨ 1500 < wordAt p 5 ∨ 2 < byteAt p 2 ∨ 2000 < wordAt p 3
    (s.part.state = .unconfigured → s.checkWeigh a lanes p = .error .wrongState)
      ∧ (s.part.state ≠ .unconfigured → p = [] → s.checkWeigh a lanes p = .error .badValue)
      ∧ (s.part.state ≠ .unconfigured → p ≠ [] → ¬ served → s.checkWeigh a lanes p = .error .notPermitted)
      ∧ (s.part.state ≠ .unconfigured → p ≠ [] → served → bad → s.checkWeigh a lanes p = .error .badValue)
      ∧ (s.part.state ≠ .unconfigured → p ≠ [] → served → ¬ bad →
          ∃ w, s.checkWeigh a lanes p = .ok w ∧ w.lane.val + 1 = lane ∧ w.axles = loadsAt p 7 n
            ∧ w.speed = wordAt p 5 ∧ w.age = wordAt p 3 ∧ confidenceOf (byteAt p 2) = some w.confidence)

/-- WEIGH_RECORD accepted (R20, R21, R22): a ticket of origin WEIGHED is made on the handle taken, decided, given its
GANTRY_DUE and its lane, and answered; then its lane is derived again. It joins its lane list, and a HOLD the nearing
segment as well, behind every ticket of an earlier or equal weigh time (R60, R82), within BAY_CAPACITY; the skip count
follows the head (R62). A PASS places its mass and a count of one on every span in use (R29, R58), recorded on the
ticket as unforced; any other decision leaves the account as it was. An answer at a full queue is dropped, with
LINK_ERROR, and the ticket stands (R20, R143). -/
def Obligations.WeighRecordMakesATicket : Prop :=
  ∀ (k : LinkNo) (f : Frame) (p : PosNo) (s : State) (a : Approach) (lanes : BitVec 3) (l : Liveness)
      (w : Weighing) (h : Handle),
    Arrives s k f p → s.entry k p = .bound (.weigh a lanes) l →
    s.checkWeigh a lanes f.payload = .ok w → s.ordinaryHandle w.axles.length = some h →
    let time := s.now - BitVec.ofNat 32 w.age
    let new := weighedTicket h a w.lane time w.speed w.axles w.confidence s.profile.degradedMargin
    let v := s.verdict new
    ∃ e, exec (.weighRecord k f) s = .next ((settle e).hear k p none)
      ∧ e.st.ticket h = some { new with
          decision := some v.1, reason := v.2, claims := if v.1 = .pass then claimSet s.spansInUse else 0 }
      ∧ e.st.dueOf h = some ⟨after time (s.stretch (travel (s.profile.distWeighGantry.get a) w.speed)), h, .gantryDue⟩
      ∧ JoinsByWeighTime e.st h time (s.laneList a w.lane) (e.st.laneList a w.lane)
      ∧ (∀ j, j ≠ w.lane → e.st.laneList a j = s.laneList a j)
      ∧ (v.1 = .hold → JoinsByWeighTime e.st h time (s.hold a).nearing (e.st.hold a).nearing
        ∧ (e.st.hold a).bay = (s.hold a).bay
        ∧ (e.st.hold a).bay.length + (e.st.hold a).nearing.length ≤ s.profile.bayCapacity.get a)
      ∧ (v.1 ≠ .hold → e.st.admission = s.admission) ∧ SkipFollowsHead s e.st a
      ∧ (∀ i : SpanNo, e.st.spanRec i = if v.1 = .pass ∧ i.val < s.profile.spanCount then
          { s.spanRec i with mass := (s.spanRec i).mass + new.mass, count := (s.spanRec i).count + 1 }
        else s.spanRec i)
      ∧ e.st.table.freeCells + (w.axles.length + 2) / 3 = s.table.freeCells
      ∧ (let answered := s.withAnswer k f (one 0 ++ one h ++ one v.1.code
            ++ one (match v.2 with | none => 0 | some r => r.code))
        e.st.links = answered.links ∧ e.st.centre = answered.centre)
      ∧ (∀ g, g ≠ h → e.st.ticket g = s.ticket g ∧ e.st.dueOf g = s.dueOf g)
      ∧ e.out = [.deriveLane a w.lane]

/-- WEIGH_RECORD refused (R19, R10): the refusal is answered with zeros and reported as WEIGH_LOSS, and no ticket is
made. For POOL_EMPTY the count and the POOL_OVERRUN event come before the answer, and POOL_EXHAUSTED is added before
WEIGH_LOSS: both orders are the model's choice (logs 7 and 29). WEIGH_LOSS (R126): the new loss-until time is now plus
travel(DIST_WEIGH_GANTRY, 50); where the cause is held, the later of it and the present one is kept; otherwise it is
taken and the cause is added. POOL_EXHAUSTED (R129) is removed from both approaches at a report with at least 8 handles
and 12 cells free, from A first and then from B, which is the model's choice (log 6), and is left otherwise. -/
def Obligations.RefusedWeighRecordIsReported : Prop :=
  (∀ (k : LinkNo) (f : Frame) (p : PosNo) (s : State) (a : Approach) (lanes : BitVec 3) (l : Liveness),
    Arrives s k f p → s.entry k p = .bound (.weigh a lanes) l →
    (∀ st, s.checkWeigh a lanes f.payload = .error st →
      exec (.weighRecord k f) s = .next ((settle
        { st := s.withAnswer k f (one st.code ++ [0, 0, 0]), out := [.weighLoss a] }).hear k p none))
    ∧ (∀ w, s.checkWeigh a lanes f.payload = .ok w → s.ordinaryHandle w.axles.length = none →
      let raised := ((s.ended k).raise .poolOverrun (some a) none 0)
      exec (.weighRecord k f) s = .next ((settle
        { st := ({ raised with table := { raised.table with
            poolOverruns := countUp raised.table.poolOverruns } } : State).answer k f [7, 0, 0, 0],
          out := [.addCause a .poolExhausted, .weighLoss a] }).hear k p none)))
    ∧ ∀ (a : Approach) (s : State),
      let new := after s.now (s.profile.distWeighGantry.get a * 36000 / 50)
      let until' (u : Time) : State := { s with modes := s.modes.set a { s.mode a with lossUntil := some u } }
      (∀ u, s.holds a .weighLoss = true → (s.mode a).lossUntil = some u →
          act (.weighLoss a) s = { st := until' (if earlier u new = true then new else u), out := [] })
        ∧ (s.holds a .weighLoss = true → (s.mode a).lossUntil = none →
            act (.weighLoss a) s = { st := until' new, out := [] })
        ∧ (s.holds a .weighLoss = false → act (.weighLoss a) s = addCause a .weighLoss (until' new))
        ∧ (8 ≤ 60 - s.table.tickets.length → 12 ≤ s.table.freeCells → act .poolReport s
            = (removeCause .A .poolExhausted s).bind (removeCause .B .poolExhausted))
        ∧ (60 - s.table.tickets.length < 8 ∨ s.table.freeCells < 12 → act .poolReport s = { st := s, out := [] })

/-- WATCH_END and WAIT_LIMIT (R97, R77), and ENTRY_DUE (R96) for an escort or without DETECTOR_FAULT: the ticket
closes, COMPLIED or LAPSED. CANCEL ESCORT and WRITE OFF (R81, R103): a request of one byte that names an escort not yet
CROSSING, or a STALLED CROSSING ticket, closes it CANCELLED or WRITTEN_OFF and is answered DONE after the closing's
effects (CANCEL ESCORT's place is the model's choice, log 7); one that names no such ticket, or is not one byte long
(BAD_VALUE), is refused and changes nothing but for its answer and the hearing. A closing that leaves no live ticket is
reported (R13): in DRAINING the part is then UNCONFIGURED and keeps everything else, its causes included (R177); in
every other part state the report changes nothing. -/
def Obligations.DuesAndRequestsCloseTickets : Prop :=
  (∀ (s : State) (d : Deadline) (ds : List Deadline) (t : Ticket),
    (DueComes s .watchEnd d ds t → ∃ e, exec .watchEnd s = .next (settle e) ∧ Closes s t .complied e)
      ∧ (DueComes s .waitLimit d ds t → ∃ e, exec .waitLimit s = .next (settle e) ∧ Closes s t .lapsed e)
      ∧ (DueComes s .entryDue d ds t → t.origin = .escort ∨ s.holds t.approach .detectorFault = false →
          ∃ e, exec .entryDue s = .next (settle e) ∧ Closes s t .lapsed e))
    ∧ (∀ s : State,
      (s.part.state = .draining → s.table.tickets = [] →
        act .noLiveTicket s = { st := { s with part := { s.part with state := .unconfigured } }, out := [] })
      ∧ (s.part.state ≠ .draining ∨ s.table.tickets ≠ [] → act .noLiveTicket s = { st := s, out := [] }))
    ∧ (∀ (f : Frame) (s : State) (l : Liveness), CentreAsks s f l → f.payload.length ≠ 1 →
      exec (.cancelEscort s.centreLink f) s = .next (s.answeredCentre f [4])
        ∧ exec (.writeOff s.centreLink f) s = .next (s.answeredCentre f [4]))
    ∧ ∀ (f : Frame) (s : State) (l : Liveness), CentreAsks s f l → f.payload.length = 1 →
      (s.ticket (byteAt f.payload 0) = none →
        exec (.cancelEscort s.centreLink f) s = .next (s.answeredCentre f [6])
          ∧ exec (.writeOff s.centreLink f) s = .next (s.answeredCentre f [6]))
      ∧ ∀ t, s.ticket (byteAt f.payload 0) = some t →
        (t.origin ≠ .escort → exec (.cancelEscort s.centreLink f) s = .next (s.answeredCentre f [6]))
          ∧ (t.origin = .escort → t.state = .crossing →
              exec (.cancelEscort s.centreLink f) s = .next (s.answeredCentre f [5]))
          ∧ (t.origin = .escort → t.state ≠ .crossing →
              ∃ e, exec (.cancelEscort s.centreLink f) s
                  = .next (((settle e).reply s.centreLink f [0]).hear s.centreLink 0 none)
                ∧ Closes s t .cancelled e)
          ∧ (t.state ≠ .crossing ∨ t.has .stalled = false →
              exec (.writeOff s.centreLink f) s = .next (s.answeredCentre f [5]))
          ∧ (t.state = .crossing → t.has .stalled = true →
              ∃ e, exec (.writeOff s.centreLink f) s
                  = .next (((settle e).reply s.centreLink f [0]).hear s.centreLink 0 none)
                ∧ Closes s t .writtenOff e)

/-! ## The span account -/

/-- R25, R28: a mass fits when on every span 1 to S the claimed mass with it and the claim count with one more are
within the limits in force, the lesser of the effective and the target value. -/
def Obligations.ClaimTestUsesTheLimitsInForce : Prop :=
  ∀ (s : State) (m : Nat), s.fits m = true ↔
    ∀ i : SpanNo, i.val < s.profile.spanCount →
      let r := s.spanRec i
      r.mass + m ≤ (match r.massTarget with | none => r.massLimit | some t => min r.massLimit t)
        ∧ r.count + 1 ≤ (match r.countTarget with | none => r.countLimit | some t => min r.countLimit t)

/-- R29, for one span record: each operation of the account keeps the unforced part within the effective limits: a
placement that passed the claim test (R28), or the escort test on a span without unforced claims (R30); a forced
placement; a release; a change of presumed load; a target's taking effect; and a limit's taking a value at or above the
effective one, or one that the unforced part fits under (in UNCONFIGURED, where R39 lets every write take effect, it is
0). -/
def Obligations.AccountKeepsTheUnforcedPartWithinTheLimits : Prop :=
  ∀ r : SpanRec, r.Lawful →
    (∀ m, r.admits m = true → (r.place m).Lawful)
      ∧ (∀ m, r.admitsEscort m = true → r.unforcedMass = 0 → (r.place m).Lawful)
      ∧ (∀ m, (r.placeForced m).Lawful)
      ∧ (∀ m forced, (r.release m forced).Lawful)
      ∧ (∀ p, (r.presume p).Lawful)
      ∧ (∀ follow, (r.settleMassTarget follow).Lawful) ∧ r.settleCountTarget.Lawful
      ∧ (∀ v follow, r.massLimit ≤ v ∨ r.unforcedMass ≤ v → (r.takeMassLimit v follow).Lawful)
      ∧ (∀ v, r.countLimit ≤ v ∨ r.unforcedCount ≤ v → (r.takeCountLimit v).Lawful)

/-- R35: the overloaded field of a span follows its condition; the OVERLOAD event is raised, naming the span, and
approach mode control is told, exactly when it goes from no to yes. R130: at that report OVERLOAD joins both cause sets
in the one change (R134), approach A before B by the model's choice (log 6), and approach mode control raises no event
of its own. -/
def Obligations.OverloadIsRaisedWhenItBegins : Prop :=
  (∀ (a : Option Approach) (h : Handle) (i : SpanNo) (s : State),
    let r := s.spanRec i
    let isOver : Bool := decide (r.massLimit < r.mass - r.presumed ∨ r.countLimit < r.count)
    let s' : State := { s with account := upd s.account i fun r => { r with overloaded := isOver } }
    evalOverload a h i s
      = if isOver = true ∧ r.overloaded = false then { st := s'.raise .overload a (some i) h, out := [.overloaded] }
        else { st := s', out := [] })
    ∧ ∀ s : State, act .overloaded s = addedOnBoth .overload s ∧ (act .overloaded s).st.centre = s.centre
        ∧ ∀ a : Approach, (act .overloaded s).st.holds a .overload = true

/-- R26, R37 to R39: a write of a mass or a count limit. The item takes the value. Below the effective limit the value
takes effect at once where the unforced part fits under it, and is otherwise a target; at or above the effective limit
it takes effect and the arbiter is told; in UNCONFIGURED every value takes effect and the arbiter is not told. A value
that takes effect leaves no target, and in CLEARING the presumed load of a span in use follows the mass limit and moves
the claimed mass by as much. The overloaded condition of the span is then evaluated (R35); that an OVERLOAD event it
raises carries no approach is the model's deduction (log 15). -/
def Obligations.LimitWritesLowerOrRaise : Prop :=
  ∀ (i : SpanNo) (v : Nat) (s : State),
    let r := s.spanRec i
    let unconfigured : Prop := s.part.state = .unconfigured
    let limited : SpanRec :=
      if s.part.state = .clearing ∧ i.val < s.profile.spanCount then
        { r with massLimit := v, massTarget := none, presumed := v, mass := r.mass - r.presumed + v }
      else { r with massLimit := v, massTarget := none }
    let mass (x : SpanRec) : State := { s with
      profile := { s.profile with spanLimit := upd s.profile.spanLimit i fun _ => v },
      account := upd s.account i fun _ => x }
    let count (x : SpanRec) : State := { s with
      profile := { s.profile with spanCountLimit := upd s.profile.spanCountLimit i fun _ => v },
      account := upd s.account i fun _ => x }
    let counted : SpanRec := { r with countLimit := v, countTarget := none }
    (unconfigured → writeMassLimit i v s = evalOverload none 0 i (mass limited))
      ∧ (¬ unconfigured → r.massLimit ≤ v →
          writeMassLimit i v s = (evalOverload none 0 i (mass limited)).emit [.arbiter])
      ∧ (¬ unconfigured → v < r.massLimit → r.mass - r.forcedMass - r.presumed ≤ v →
          writeMassLimit i v s = evalOverload none 0 i (mass limited))
      ∧ (¬ unconfigured → v < r.massLimit → v < r.mass - r.forcedMass - r.presumed →
          writeMassLimit i v s = evalOverload none 0 i (mass { r with massTarget := some v }))
      ∧ (unconfigured → writeCountLimit i v s = evalOverload none 0 i (count counted))
      ∧ (¬ unconfigured → r.countLimit ≤ v →
          writeCountLimit i v s = (evalOverload none 0 i (count counted)).emit [.arbiter])
      ∧ (¬ unconfigured → v < r.countLimit → r.count - r.forcedCount ≤ v →
          writeCountLimit i v s = evalOverload none 0 i (count counted))
      ∧ (¬ unconfigured → v < r.countLimit → v < r.count - r.forcedCount →
          writeCountLimit i v s = evalOverload none 0 i (count { r with countTarget := some v }))

/-! ## Lines -/

/-- LEADING_EDGE (R48): an ABSENT line becomes CONFIRMING, with its last capture now and its two dues set.
TRAILING_EDGE (R48, R50, R51): a CONFIRMING line counts noise and a PRESENT one nothing, and both are ABSENT and
without dues; a STUCK line is ABSENT too: one of an approach leaves it one stuck line fewer, and the last removes
DETECTOR_FAULT; an UNUSED one reports to no approach. -/
def Obligations.EdgesBeginAndEndAPresence : Prop :=
  ∀ (d : LineNo) (s : State), s.inReset = false →
    let gone (noise : Nat) : State := { s with lines := upd s.lines d fun r =>
      { r with level := !r.polarity.level, state := .absent, confirmDue := none, stuckDue := none, noise := noise } }
    ((s.line d).state = .absent →
      exec (.leadingEdge d) s = .next { s with lines := upd s.lines d fun r =>
        { r with level := r.polarity.level, state := .confirming, lastCapture := s.now,
                 confirmDue := some (after s.now s.profile.minPresence),
                 stuckDue := some (after s.now (s.profile.stuckLimit * 1000)) } })
      ∧ ((s.line d).state = .confirming → exec (.trailingEdge d) s = .next (gone (countUp (s.line d).noise)))
      ∧ ((s.line d).state = .present → exec (.trailingEdge d) s = .next (gone (s.line d).noise))
      ∧ (∀ pt, (s.line d).state = .stuck → (s.line d).point = some pt →
          exec (.trailingEdge d) s = .next (settle
            { st := (gone (s.line d).noise).updMode pt.approach fun m => { m with stuckCount := m.stuckCount - 1 },
              out := if (s.mode pt.approach).stuckCount ≤ 1 then [.removeCause pt.approach .detectorFault]
                else [] }))
      ∧ ((s.line d).state = .stuck → (s.line d).point = none →
          exec (.trailingEdge d) s = .next (gone (s.line d).noise))

/-- LINE_CONFIRM_DUE (R48, R49): when the confirm due of a CONFIRMING line has come, the line is PRESENT; in
UNCONFIGURED, or on an UNUSED line, nothing else changes, and otherwise its detection, with the time of its leading
edge, is matched. STUCK_DUE (R48, R50, R128): when the stuck due of a PRESENT line has come, the line is STUCK: its
approach has one stuck line more, and the first adds DETECTOR_FAULT; an UNUSED line reports to no approach. -/
def Obligations.LineDuesConfirmAndStick : Prop :=
  ∀ (d : LineNo) (s : State) (due : Time), s.inReset = false → hasCome s.now due = true →
    let become (x : LineState) : State := { s with lines := upd s.lines d fun r => { r with state := x } }
    ((s.line d).state = .confirming → (s.line d).confirmDue = some due →
      (s.part.state = .unconfigured ∨ (s.line d).point = none →
        exec (.lineConfirmDue d) s = .next (become .present))
      ∧ (∀ pt, s.part.state ≠ .unconfigured → (s.line d).point = some pt →
        exec (.lineConfirmDue d) s = .next (settle (deliver pt (s.line d).lastCapture (become .present)))))
    ∧ (∀ pt, (s.line d).state = .present → (s.line d).stuckDue = some due → (s.line d).point = some pt →
      exec (.stuckDue d) s = .next (settle
        { st := (become .stuck).updMode pt.approach fun m => { m with stuckCount := m.stuckCount + 1 },
          out := if (s.mode pt.approach).stuckCount = 0 then [.addCause pt.approach .detectorFault] else [] }))
    ∧ ((s.line d).state = .present → (s.line d).stuckDue = some due → (s.line d).point = none →
      exec (.stuckDue d) s = .next (become .stuck))

/-! ## Tracking -/

/-- R85 to R88: a gantry detection takes the head of its lane's list, with the lane of the detection consulted, or the
oldest NEARING ticket across lanes, flagged CROSS_LANE: the head of the earliest weigh time, of equal times the one of
the lowest lane (R82). GANTRY_DUE takes its ticket, flagged GANTRY_PRESUMED, with the ticket's own lane consulted and
its due as the arrival. The ticket leaves its lane list, and a lane whose head has changed is to be derived again (R83,
R108); the skip count follows the head of the hold queue (R62). -/
def Obligations.GantryPassagesFollowTheDecision : Prop :=
  (∀ (a : Approach) (l : LaneNo) (captured : Time) (s : State),
    (∀ h t, s.laneHead a l = some h → s.ticket h = some t → t.approach = a →
      PassesGantry s t l captured [] (deliver ⟨a, .gantry l⟩ captured s))
    ∧ (∀ hs h gs t, s.laneHead a l = none →
      let weighed (g : Handle) : Time := ((s.ticket g).bind Ticket.weighTime).getD 0
      ([0, 1, 2] : List LaneNo).filterMap (fun j => s.laneHead a j) = hs ++ h :: gs →
      (∀ g ∈ hs, earlier (weighed h) (weighed g) = true) → (∀ g ∈ gs, earlier (weighed g) (weighed h) = false) →
      s.ticket h = some t → t.approach = a →
      PassesGantry s t l captured [.crossLane] (deliver ⟨a, .gantry l⟩ captured s)))
    ∧ ∀ (s : State) (d : Deadline) (ds : List Deadline) (t : Ticket) (l : LaneNo),
        DueComes s .gantryDue d ds t → t.lane = some l →
        ∃ e, exec .gantryDue s = .next (settle e) ∧ PassesGantry s t l d.due [.gantryPresumed] e

/-- R84: a detection that matches nothing raises STRAY_DETECTION, with the approach of the point and no ticket, and is
counted; it changes no ticket, list or claim. At the gantry: every lane list is empty. At the bay exit: the leaving slot
is empty. -/
def Obligations.UnmatchedDetectionsAreStrays : Prop :=
  ∀ (a : Approach) (captured : Time) (s : State),
    let raised := s.raise .strayDetection (some a) none 0
    let stray : Eff := { st := { raised with table := { raised.table with strays := countUp raised.table.strays } },
                         out := [] }
    (∀ l : LaneNo, (∀ j : LaneNo, s.laneList a j = []) → deliver ⟨a, .gantry l⟩ captured s = stray)
      ∧ ((s.places a).leaving = none → deliver ⟨a, .bayExit⟩ captured s = stray)

/-- R90, R91: the leaving ticket is seen out of the bay by a bay exit detection, or presumed out by RELEASE_DUE, with
the flag EXIT_PRESUMED. R73: when the leaving slot has emptied, the bay signal is IDLE and, in use, wanted HOLD; a head
of the bay segment flagged OVERDUE is then released to diversion (R72), the skip count following the head (R62), and the
arbiter runs last. -/
def Obligations.TheLeavingTicketLeavesTheBay : Prop :=
  (∀ (a : Approach) (captured : Time) (s : State) (h : Handle) (t : Ticket), (s.places a).leaving = some h →
    s.ticket h = some t → t.approach = a → LeavesBay s t captured [] (deliver ⟨a, .bayExit⟩ captured s))
    ∧ (∀ (s : State) (d : Deadline) (ds : List Deadline) (t : Ticket), DueComes s .releaseDue d ds t →
        ∃ e, exec .releaseDue s = .next (settle e) ∧ LeavesBay s t d.due [.exitPresumed] e)
    ∧ ∀ (a : Approach) (s : State),
        let e := act (.leavingEmpty a) s
        let idle : State := { s with admission := { s.admission with
          baySignal := s.admission.baySignal.set a .idle } }
        let shown : Eff := if 0 < s.profile.bayCapacity.get a then wantBay a .hold idle else { st := idle, out := [] }
        ((∀ h t, (s.hold a).bay.head? = some h → s.ticket h = some t → t.has .overdue = false) →
            e = { st := shown.st, out := shown.out ++ [.arbiter] })
          ∧ ∀ h t, (s.hold a).bay.head? = some h → s.ticket h = some t → t.approach = a → t.has .overdue = true →
            e.st.ticket h = some { t with
                decision := some .divert, state := .leavingBay,
                reason := some (if (s.mode a).causes = 0 then .bayOverdue else .approachRestricted) }
              ∧ (e.st.places a).leaving = some h
              ∧ e.st.hold a = { s.hold a with bay := (s.hold a).bay.filter fun g => g != h } ∧ SkipFollowsHead s e.st a
              ∧ e.st.dueOf h = some ⟨after s.now (s.profile.bayReleaseTime * 1000), h, .releaseDue⟩
              ∧ e.st.signal a = .releasing h .divert
              ∧ (0 < s.profile.bayCapacity.get a → (e.st.bay a).wanted = .releaseDivert)
              ∧ e.st.account = s.account ∧ ∃ gs, e.out = gs ++ [.arbiter]

/-- R92 to R94, R96: an entry detection takes, in this order, the oldest RUNNING_IN ticket; a leaving ticket with
decision PASS, flagged EXIT_PRESUMED; the NEARING ticket with decision PASS of the earliest weigh time, of equal times
the one of the lowest lane and there the first (R82), flagged GANTRY_PRESUMED; the oldest WATCHED ticket, with the
claims it kept if it is COUNTERMANDED, and otherwise as a violation: flagged VIOLATION, with forced claims of its mass
on every span 1 to S, VIOLATION raised with the approach, the first span and the handle, and counted. ENTRY_DUE under
DETECTOR_FAULT takes its WEIGHED ticket, flagged ENTRY_PRESUMED, at the due. Each becomes CROSSING on the first span of
its direction, out of its old place, and the move is reported. That VIOLATION is raised after the placement's OVERLOAD
events is the model's deduction (log 25). -/
def Obligations.EntryDetectionsTakeTicketsInOrder : Prop :=
  (∀ (a : Approach) (captured : Time) (s : State) (h : Handle) (t : Ticket), s.ticket h = some t → t.approach = a →
    let e := deliver ⟨a, .entry⟩ captured s
    let i := s.firstSpan a
    let running : Prop := (s.places a).run ≠ []
    let passes (g : Handle) : Prop := ∃ u, s.ticket g = some u ∧ u.decision = some .pass
    let leaves : Prop := ∃ g, (s.places a).leaving = some g ∧ passes g
    let lists := s.laneList a 0 ++ s.laneList a 1 ++ s.laneList a 2
    let near (g : Handle) : Prop := g ∈ lists ∧ passes g
    let weighed (g : Handle) : Time := ((s.ticket g).bind Ticket.weighTime).getD 0
    ((s.places a).run.head? = some h → Enters s e i captured (t.crossingOn i []) s.spanRec ∧ ReportsTheMove s e a)
      ∧ (¬ running → (s.places a).leaving = some h → t.decision = some .pass →
          Enters s e i captured (t.crossingOn i [.exitPresumed]) s.spanRec ∧ ReportsTheMove s e a)
      ∧ (∀ hs gs, ¬ running → ¬ leaves → lists = hs ++ h :: gs → passes h →
          (∀ g ∈ hs, passes g → earlier (weighed h) (weighed g) = true) →
          (∀ g ∈ gs, passes g → earlier (weighed g) (weighed h) = false) →
          Enters s e i captured (t.crossingOn i [.gantryPresumed]) s.spanRec ∧ ReportsTheMove s e a)
      ∧ (¬ running → ¬ leaves → (∀ g, ¬ near g) → (s.places a).watch.head? = some h → t.has .countermanded = true →
          Enters s e i captured (t.crossingOn i []) s.spanRec ∧ ReportsTheMove s e a)
      ∧ (¬ running → ¬ leaves → (∀ g, ¬ near g) → (s.places a).watch.head? = some h → t.has .countermanded = false →
          Enters s e i captured
              { t.crossingOn i [.violation] with claims := claimSet s.spansInUse, forced := true }
              (fun j => if j.val < s.profile.spanCount then (s.spanRec j).withForced t.mass else s.spanRec j)
            ∧ ReportsTheMove s e a
            ∧ (.overloaded ∈ e.out ↔ ∃ j : SpanNo, j.val < s.profile.spanCount ∧ (s.spanRec j).overloaded = false
                ∧ ((s.spanRec j).withForced t.mass).overloaded = true)
            ∧ ∃ u : State, e.st = { u.raise .violation (some a) (some i) h with
                table := { u.table with violations := countUp s.table.violations } }))
    ∧ ∀ (s : State) (d : Deadline) (ds : List Deadline) (t : Ticket), DueComes s .entryDue d ds t →
        t.origin ≠ .escort → s.holds t.approach .detectorFault = true →
        ∃ e, exec .entryDue s = .next (settle e)
          ∧ Enters s e (s.firstSpan t.approach) d.due (t.crossingOn (s.firstSpan t.approach) [.entryPresumed]) s.spanRec
          ∧ ReportsTheMove s e t.approach

/-- R95, R11, R34: an entry detection that finds no RUNNING_IN ticket, no leaving or NEARING ticket with decision PASS
and no WATCHED ticket makes an intruder on the first span, on the lowest free handle, the reserve included, with its
SPAN_DUE and forced claims of INTRUDER_MASS on every span 1 to S; INTRUSION is raised with its handle and counted, and
a span that becomes overloaded is reported (R35). With no handle free it makes no ticket, raises INTRUSION with handle
0, counts it, and signals approach mode control, which, unless OVERLOAD is held, raises one OVERLOAD event and adds the
cause on both approaches (R130). That INTRUSION is raised after the placement's OVERLOAD events is the model's
deduction (log 25); that R130's OVERLOAD event is raised before the cause is added is its choice (log 32), and so is
approach A before B in what follows from the cause (log 6). -/
def Obligations.UnmatchedEntriesMakeIntruders : Prop :=
  (∀ (a : Approach) (captured : Time) (s : State), (s.places a).run = [] → (s.places a).watch = [] →
    (∀ h t, (s.places a).leaving = some h → s.ticket h = some t → t.decision ≠ some .pass) →
    (∀ (l : LaneNo) (h : Handle) (t : Ticket), h ∈ s.laneList a l → s.ticket h = some t → t.decision ≠ some .pass) →
    MakesIntruder s (deliver ⟨a, .entry⟩ captured s) a (s.firstSpan a) captured s.spansInUse)
    ∧ ∀ (a : Approach) (s : State),
        (s.holds a .overload = true → act (.unticketedIntruder a) s = { st := s, out := [] })
          ∧ (s.holds a .overload = false →
              act (.unticketedIntruder a) s = addedOnBoth .overload (s.raise .overload (some a) none 0))

/-- R98 to R101. A boundary detection takes the oldest ticket of the first list that is not empty, from the span before
the boundary back. The ticket stands at the tail of the list of the span after the boundary, which is its current span;
it gives back its claims on every span before, and its on-span figures move with it; it gets a SPAN_DUE from the
captured time unless it is STALLED; and the arbiter is to run. A boundary detection that finds no ticket is a stray in
CLEARING, naming the span after the boundary, and otherwise makes an intruder there, with forced claims on that span
and the spans after it. An exit detection closes the oldest ticket of the first list that is not empty, from the last
span back: VIOLATED when flagged VIOLATION, INTRUDED for another intruder, CROSSED for any other; with none it is a
stray. That an intruder's INTRUSION is raised after the OVERLOAD events of its placement is the model's deduction (log
25). -/
def Obligations.BoundariesMoveTicketsAndExitsCloseThem : Prop :=
  (∀ (a : Approach) (k : Fin 3) (captured : Time) (s : State),
    let before : SpanNo := match a with | .A => k.castSucc | .B => k.succ
    let i : SpanNo := match a with | .A => k.succ | .B => k.castSucc
    let behind (j : SpanNo) : Prop := match a with | .A => j < i | .B => i < j
    let left : List SpanNo := s.spansInUse.filter fun j => match a with | .A => decide (j < i) | .B => decide (i < j)
    let searched := (s.spansBackFrom a before).flatMap fun j => (s.places a).spans.get j
    let e := deliver ⟨a, .boundary k⟩ captured s
    (∀ h t, searched.head? = some h → s.ticket h = some t → t.approach = a →
      e.st.ticket h = some { t with span := some i, claims := t.claims &&& ~~~(claimSet left) }
        ∧ e.st.tracking = s.tracking.set a ((s.places a).movedOnto h i)
        ∧ e.st.dueOf h = (if t.has .stalled = true then s.dueOf h
            else some ⟨after captured (travel (s.profile.spanLength.get i) s.profile.crawlSpeed), h, .spanDue⟩)
        ∧ (∀ j, (e.st.spanRec j).onMass = (if t.span = some j then (s.spanRec j).onMass - t.mass
              else (s.spanRec j).onMass) + (if j = i then t.mass else 0)
            ∧ (e.st.spanRec j).onCount = (if t.span = some j then (s.spanRec j).onCount - 1
              else (s.spanRec j).onCount) + (if j = i then 1 else 0))
        ∧ (∀ j : SpanNo,
            let released : Prop := j.val < s.profile.spanCount ∧ behind j ∧ t.claims.getLsbD j.val = true
            (¬ released → (e.st.spanRec j).mass = (s.spanRec j).mass ∧ (e.st.spanRec j).count = (s.spanRec j).count)
              ∧ (released → (e.st.spanRec j).count = (s.spanRec j).count - 1
                ∧ (s.part.state ≠ .clearing → (e.st.spanRec j).mass = (s.spanRec j).mass - t.mass)
                ∧ (e.st.spanRec j).forcedMass
                    = (if t.forced = true then (s.spanRec j).forcedMass - t.mass else (s.spanRec j).forcedMass)))
        ∧ (∀ g, g ≠ h → e.st.ticket g = s.ticket g ∧ e.st.dueOf g = s.dueOf g)
        ∧ ∃ gs, e.out = gs ++ [.arbiter])
      ∧ (searched = [] → s.part.state = .clearing →
          let raised := s.raise .strayDetection (some a) (some i) 0
          e = { st := { raised with table := { raised.table with strays := countUp raised.table.strays } }, out := [] })
      ∧ (searched = [] → s.part.state ≠ .clearing →
          MakesIntruder s e a i captured (s.spansInUse.filter fun j => decide (j ∉ left))))
    ∧ ∀ (a : Approach) (captured : Time) (s : State),
      let searched := (s.spansBackFrom a (s.lastSpan a)).flatMap fun i => (s.places a).spans.get i
      (∀ h t, searched.head? = some h → s.ticket h = some t →
        Closes s t (if t.has .violation = true then .violated else if t.origin = .intruder then .intruded else .crossed)
          (deliver ⟨a, .exit⟩ captured s))
      ∧ (searched = [] →
          let raised := s.raise .strayDetection (some a) (some (s.lastSpan a)) 0
          deliver ⟨a, .exit⟩ captured s
            = { st := { raised with table := { raised.table with strays := countUp raised.table.strays } }, out := [] })

/-- SPAN_DUE (R102): the ticket is flagged STALLED, keeps its span and its claims and gets no due, and STALL is raised
with its approach, span and handle. -/
def Obligations.SpanDueFlagsAStall : Prop :=
  ∀ (s : State) (d : Deadline) (ds : List Deadline) (t : Ticket), DueComes s .spanDue d ds t →
    exec .spanDue s = .next
      (({ s with deadlines := ds, table := { s.table with
          tickets := s.table.tickets.map fun u => if u.handle = t.handle then u.flag .stalled else u } } : State).raise
        .stall (some t.approach) t.span t.handle)

/-! ## Admission -/

/-- BAY_LIMIT (R71): a ticket that is not the head of the bay segment, or whose bay signal is RELEASING, is flagged
OVERDUE, gets no due and waits; the head under an IDLE signal is released to diversion: DIVERT with reason BAY_OVERDUE
on an OPEN approach and APPROACH_RESTRICTED on another, LEAVING_BAY in the leaving slot, RELEASE_DUE after
BAY_RELEASE_TIME, and the signal RELEASING for it and, in use, wanting RELEASE_DIVERT (R70). -/
def Obligations.BayLimitMakesATicketOverdue : Prop :=
  ∀ (s : State) (d : Deadline) (ds : List Deadline) (t : Ticket), DueComes s .bayLimit d ds t →
    (((s.hold t.approach).bay.head? = some t.handle → s.signal t.approach ≠ .idle) →
      (∀ h u, h ≠ t.handle → (s.hold t.approach).bay.head? = some h → s.ticket h = some u → u.has .overdue = true →
        s.signal t.approach ≠ .idle) →
      exec .bayLimit s = .next { s with deadlines := ds, table := { s.table with
        tickets := s.table.tickets.map fun u => if u.handle = t.handle then u.flag .overdue else u } })
    ∧ ((s.hold t.approach).bay.head? = some t.handle → s.signal t.approach = .idle →
      ∃ e, exec .bayLimit s = .next (settle e)
        ∧ e.st.ticket t.handle = some { t.flag .overdue with
            decision := some .divert, state := .leavingBay,
            reason := some (if s.isOpen t.approach = true then .bayOverdue else .approachRestricted) }
        ∧ (e.st.places t.approach).leaving = some t.handle
        ∧ e.st.hold t.approach
          = { s.hold t.approach with bay := (s.hold t.approach).bay.filter fun g => g != t.handle }
        ∧ SkipFollowsHead s e.st t.approach
        ∧ e.st.dueOf t.handle = some ⟨after s.now (s.profile.bayReleaseTime * 1000), t.handle, .releaseDue⟩
        ∧ e.st.signal t.approach = .releasing t.handle .divert
        ∧ (0 < s.profile.bayCapacity.get t.approach → (e.st.bay t.approach).wanted = .releaseDivert)
        ∧ e.st.account = s.account)

/-- R63 to R66. An approach that is OPEN offers its head when the head is BAYED, not OVERDUE, under an IDLE signal, or
NEARING with its nominal gantry arrival at least GUARD after now. While the escort slot is occupied a pass grants the
escort, if its approach is OPEN and the escort test passes, and nothing else; while an escort holds claims it grants
nothing. Otherwise the approach the turn names is tried first; a head that fits is granted; one that does not fit lets
the other's head be granted, at the cost of one skip, until SKIP_LIMIT; an approach that offers nothing leaves the other
free; a pass that grants nothing changes nothing. A run repeats its passes, each on the state the one before left, until
one grants nothing; the records that its grants change are derived after that, in the order of R111, approach A's
first, which is the model's choice (log 6). A bay signal in use is derived to the aspect that its release state gives
(R70, R106), and one not in use is left alone. -/
def Obligations.TheArbiterGrantsByTurnAndSkip : Prop :=
  (∀ (s : State) (a : Approach) (t : Ticket), s.offers a = some t ↔ (s.mode a).causes = 0
      ∧ (∃ h, ((s.hold a).bay ++ (s.hold a).nearing).head? = some h ∧ s.ticket h = some t)
      ∧ (t.state = .bayed ∧ t.has .overdue = false ∧ s.signal a = .idle
        ∨ t.state = .nearing ∧ (s.profile.guard : Int) ≤ (after (t.weighTime.getD 0)
            (travel (s.profile.distWeighGantry.get t.approach) (t.speed.getD 0)) - s.now).toInt))
    ∧ (∀ (s : State) (h : Handle) (t : Ticket), s.admission.escortSlot = some h → s.ticket h = some t →
      let passes : Prop := (s.mode t.approach).causes = 0 ∧ ∀ i : SpanNo, i.val < s.profile.spanCount →
        (s.spanRec i).count - (s.spanRec i).forcedCount = 0
          ∧ (s.spanRec i).forcedMass + t.mass ≤ (s.spanRec i).massLimit
          ∧ (s.spanRec i).forcedCount + 1 ≤ (s.spanRec i).countLimit
      (passes → arbiterPass s = some { st := grantEscort t s, shows := [] }) ∧ (¬ passes → arbiterPass s = none))
    ∧ (∀ s : State, s.admission.escortSlot = none →
      let claims : Prop := ∃ t ∈ s.table.tickets, t.origin = .escort ∧ t.claims ≠ 0
      let f := s.admission.turn
      let o := other f
      (claims → arbiterPass s = none)
      ∧ (∀ t, ¬ claims → s.offers f = some t → s.fits t.mass = true → arbiterPass s = some (grantHead t s))
      ∧ (∀ t, ¬ claims → s.offers f = some t → s.fits t.mass = false → s.profile.skipLimit ≤ s.admission.skip.get f →
          arbiterPass s = none)
      ∧ (∀ t u, ¬ claims → s.offers f = some t → s.fits t.mass = false → s.admission.skip.get f < s.profile.skipLimit →
          s.offers o = some u → s.fits u.mass = true →
          arbiterPass s = some (grantHead u { s with admission := { s.admission with
            skip := s.admission.skip.set f (s.admission.skip.get f + 1) } }))
      ∧ (∀ u, ¬ claims → s.offers f = none → s.offers o = some u → s.fits u.mass = true →
          arbiterPass s = some (grantHead u s))
      ∧ ((∀ t, s.offers f = some t → s.fits t.mass = false) → (∀ u, s.offers o = some u → s.fits u.mass = false) →
          arbiterPass s = none))
    ∧ ∀ s : State,
      let g := grants s.waiting s
      (∀ n, (arbiterPass s = none → grants n s = { st := s, shows := [] })
        ∧ ∀ p, arbiterPass s = some p →
          grants (n + 1) s = { st := (grants n p.st).st, shows := p.shows ++ (grants n p.st).shows })
      ∧ ((∀ (a : Approach) (h : Handle) (t : Ticket), s.ticket h = some t →
            (h ∈ (s.hold a).bay → t.approach = a ∧ t.state = .bayed)
              ∧ (h ∈ (s.hold a).nearing → t.approach = a ∧ t.state = .nearing)) →
          arbiterPass g.st = none)
      ∧ act .arbiter s = Eff.each
          (([Approach.A, .B].flatMap fun a => [RecordId.lane 0, .lane 1, .lane 2, .bay].map fun r => (a, r)).filter
            fun x => g.shows.contains x)
          (fun x => match x.2 with | .lane l => deriveLane x.1 l | .bay => deriveBay x.1) g.st
      ∧ ∀ a : Approach, deriveBay a s = if 0 < s.profile.bayCapacity.get a then wantBay a (match s.signal a with
          | .idle => .hold
          | .releasing _ .viaduct => .releaseViaduct
          | .releasing _ .divert => .releaseDivert) s
        else { st := s, out := [] }

/-- R62, R66 to R68, R78, R168: a granted head loses the turn for its approach, whose skip count follows the head of
its hold queue, and so returns to 0 when the head granted has left it; the other's skip count stays. The head takes
unforced claims on the spans in use, and is a PASS without a reason. A NEARING head is flagged PROMOTED, leaves the
nearing segment and stays NEARING, and its lane is to be derived. A BAYED head is LEAVING_BAY in the leaving slot, out
of the bay segment, with RELEASE_DUE after BAY_RELEASE_TIME and its bay signal RELEASING to the viaduct, and that
signal is to be derived, which has it want RELEASE_VIADUCT where it is in use (R70). A granted escort takes the same
claims, is a PASS, RUNNING_IN at the tail of its run list, out of the slot, with ENTRY_DUE after ESCORT_WINDOW, and
leaves the turn, the skips and the queues; ESCORT GRANTED, with handle, approach and due, is offered to a LIVE centre,
and a full queue drops it with LINK_ERROR (R143). -/
def Obligations.GrantsPromoteOrRelease : Prop :=
  ∀ (s : State) (t : Ticket), s.ticket t.handle = some t →
    let placed (u : State) : Prop := ∀ i : SpanNo, u.spanRec i = if i.val < s.profile.spanCount then
        { s.spanRec i with mass := (s.spanRec i).mass + t.mass, count := (s.spanRec i).count + 1 }
      else s.spanRec i
    let others (u : State) : Prop := ∀ g, g ≠ t.handle → u.ticket g = s.ticket g ∧ u.dueOf g = s.dueOf g
    let passed : Ticket := { t with
      decision := some .pass, reason := none, claims := claimSet s.spansInUse, forced := false }
    let g := grantHead t s
    let u := grantEscort t s
    let q := s.hold t.approach
    let gone (hs : List Handle) := hs.filter fun g => g != t.handle
    g.st.admission.turn = (match t.approach with | .A => .B | .B => .A) ∧ placed g.st ∧ others g.st
      ∧ SkipFollowsHead s g.st t.approach
      ∧ (t.state = .nearing →
          g.st.ticket t.handle = some (passed.flag .promoted)
          ∧ g.st.admission = { s.admission with
              turn := g.st.admission.turn, skip := g.st.admission.skip,
              hold := s.admission.hold.set t.approach { q with nearing := gone q.nearing } }
          ∧ (q.bay = [] → q.nearing.head? = some t.handle → g.st.admission.skip = s.admission.skip.set t.approach 0)
          ∧ g.st.dueOf t.handle = s.dueOf t.handle
          ∧ g.st.tracking = s.tracking
          ∧ g.shows = (match t.lane with | none => [] | some l => [(t.approach, .lane l)]))
      ∧ (t.state = .bayed →
          g.st.ticket t.handle = some { passed with state := .leavingBay }
          ∧ (g.st.places t.approach).leaving = some t.handle
          ∧ g.st.admission = { s.admission with
              turn := g.st.admission.turn, skip := g.st.admission.skip,
              hold := s.admission.hold.set t.approach { q with bay := gone q.bay },
              baySignal := s.admission.baySignal.set t.approach (.releasing t.handle .viaduct) }
          ∧ (q.bay.head? = some t.handle → t.handle ∉ q.nearing →
              g.st.admission.skip = s.admission.skip.set t.approach 0)
          ∧ g.st.dueOf t.handle = some ⟨after s.now (s.profile.bayReleaseTime * 1000), t.handle, .releaseDue⟩
          ∧ g.shows = [(t.approach, .bay)]
          ∧ (0 < s.profile.bayCapacity.get t.approach →
              ((deriveBay t.approach g.st).st.bay t.approach).wanted = .releaseViaduct))
      ∧ placed u ∧ others u
      ∧ u.ticket t.handle = some { passed with state := .runningIn }
      ∧ u.admission = { s.admission with escortSlot := none }
      ∧ u.tracking = s.tracking.set t.approach { s.places t.approach with
          run := (s.places t.approach).run ++ [t.handle] }
      ∧ (let due := after s.now (s.profile.escortWindow * 1000)
        let payload := one t.handle ++ one (match t.approach with | .A => 0 | .B => 1) ++ four due.toNat
        let notice : TxFrame := { hop := 1, code := 0x32, tag := 0, payload := payload, resetAnswer := false }
        u.dueOf t.handle = some ⟨due, t.handle, .entryDue⟩
          ∧ (s.centreLive = false → u.links = s.links ∧ u.centre = s.centre)
          ∧ (s.centreLive = true → s.hasRoom s.centreLink = true → u.centre = s.centre
              ∧ u.links = upd s.links s.centreLink fun r => { r with queue := r.queue ++ [notice] })
          ∧ (s.centreLive = true → s.hasRoom s.centreLink = false → u.links = s.links
              ∧ u.centre = { s.centre with summary := s.centre.summary ||| BitVec.twoPow 12 9 }))

/-- R74, R32: a demotion, called by a report, acts on a NEARING ticket with decision PASS alone: DEMOTED, HOLD with
room in the bay, joining the nearing segment by its weigh time (R60), the skip count following the head (R62), and
DIVERT without, reason SIGN_GUARD. Its claims on all spans are released through the account: one claim fewer on each
span it claimed and, unless the part is in CLEARING, its mass; its claim set is empty. It stays NEARING in its lane
list with its due; its lane is to be derived (R110) and the arbiter is to run (R32): that the lane comes first is the
model's choice (log 6). -/
def Obligations.DemotionWithdrawsAPass : Prop :=
  ∀ (h : Handle) (t : Ticket) (s : State), s.ticket h = some t →
    let e := demote h s
    act (.demote h) s = e
      ∧ (¬ (t.state = .nearing ∧ t.decision = some .pass) → e = Eff.of s)
      ∧ (t.state = .nearing → t.decision = some .pass →
          let room : Prop := (s.hold t.approach).bay.length + (s.hold t.approach).nearing.length
            < s.profile.bayCapacity.get t.approach
          e.st.ticket h = some { t.flag .demoted with
              decision := some (if (s.hold t.approach).bay.length + (s.hold t.approach).nearing.length
                < s.profile.bayCapacity.get t.approach then .hold else .divert),
              reason := some .signGuard, claims := 0 }
            ∧ (room → JoinsByWeighTime e.st h (t.weighTime.getD 0) (s.hold t.approach).nearing
                  (e.st.hold t.approach).nearing
                ∧ (e.st.hold t.approach).bay = (s.hold t.approach).bay
                ∧ (e.st.hold t.approach).bay.length + (e.st.hold t.approach).nearing.length
                  ≤ s.profile.bayCapacity.get t.approach)
            ∧ (¬ room → e.st.admission = s.admission) ∧ SkipFollowsHead s e.st t.approach
            ∧ (∀ i : SpanNo, (e.st.spanRec i).count
                = if t.claims.getLsbD i.val = true then (s.spanRec i).count - 1 else (s.spanRec i).count)
            ∧ (s.part.state ≠ .clearing → ∀ i : SpanNo, (e.st.spanRec i).mass
                = if t.claims.getLsbD i.val = true then (s.spanRec i).mass - t.mass else (s.spanRec i).mass)
            ∧ (∀ i : SpanNo, (e.st.spanRec i).forcedMass
                = if t.claims.getLsbD i.val = true ∧ t.forced = true then (s.spanRec i).forcedMass - t.mass
                  else (s.spanRec i).forcedMass)
            ∧ (∀ l, t.lane = some l → .deriveLane t.approach l ∈ e.out) ∧ (∃ gs, e.out = gs ++ [.arbiter])
            ∧ e.st.tracking = s.tracking ∧ e.st.deadlines = s.deadlines
            ∧ ∀ g, g ≠ h → e.st.ticket g = s.ticket g)

/-- ESCORT (R79, R80). The checks in their order: the part state, one escort at a time, the values, with the loads held
to AXLE_LIMIT and their sum to every effective mass limit; then the allocation. An accepted request makes a ticket of
origin ESCORT in the escort slot, with its WAIT_LIMIT, is answered DONE with its handle, and the arbiter runs; a
refused one is answered with handle 0, and one refused for want of a handle or of cells (R10) is counted and raises
POOL_OVERRUN. That this event and its count come before the answer is the model's choice (log 7), and that a SILENT
centre is sent no ALERT of it is the model's deduction (log 8). An answer at a full queue is dropped, with LINK_ERROR,
and the escort stands (R143). -/
def Obligations.EscortEntersTheSlot : Prop :=
  (∀ (s : State) (p : List Byte),
    let n := byteAt p 3
    let loads := loadsAt p 4 n
    let closed : Prop := s.part.state = .unconfigured ∨ s.part.state = .draining
    let lives : Prop := ∃ t ∈ s.table.tickets, t.origin = .escort
    let bad : Prop := p.length < 4 ∨ 1 < byteAt p 0 ∨ n < 2 ∨ 9 < n ∨ p.length ≠ 4 + 2 * n ∨ wordAt p 1 < 50
      ∨ 1500 < wordAt p 1 ∨ (∃ x ∈ loads, s.profile.axleLimit < x)
      ∨ ∃ i : SpanNo, i.val < s.profile.spanCount ∧ (s.spanRec i).massLimit < loads.sum
    (closed → s.checkEscort p = .error .wrongState)
      ∧ (¬ closed → lives → s.checkEscort p = .error .wrongState)
      ∧ (¬ closed → ¬ lives → bad → s.checkEscort p = .error .badValue)
      ∧ (¬ closed → ¬ lives → ¬ bad → ∃ x, s.checkEscort p = .ok x
          ∧ byteAt p 0 = (match x.approach with | .A => 0 | .B => 1) ∧ x.speed = wordAt p 1 ∧ x.axles = loads
          ∧ x.axles.length = n))
  ∧ ∀ (f : Frame) (s : State) (l : Liveness), CentreAsks s f l →
    (∀ st, s.checkEscort f.payload = .error st →
      exec (.escort s.centreLink f) s = .next (s.answeredCentre f (one st.code ++ [0])))
    ∧ (∀ x, s.checkEscort f.payload = .ok x → s.ordinaryHandle x.axles.length = none →
      let raised := (s.ended s.centreLink).raise .poolOverrun (some x.approach) none 0
      let counted : State := { raised with
        table := { raised.table with poolOverruns := countUp raised.table.poolOverruns } }
      exec (.escort s.centreLink f) s = .next ((counted.reply s.centreLink f [7, 0]).hear s.centreLink 0 none))
    ∧ (∀ x h, s.checkEscort f.payload = .ok x → s.ordinaryHandle x.axles.length = some h →
      ∃ e, exec (.escort s.centreLink f) s = .next ((settle e).hear s.centreLink 0 none)
        ∧ e.st.ticket h = some (escortTicket h x.approach s.now x.speed x.axles)
        ∧ e.st.admission = { s.admission with escortSlot := some h }
        ∧ e.st.dueOf h = some ⟨after s.now (s.profile.escortWaitLimit * 1000), h, .waitLimit⟩
        ∧ e.st.links = (s.withAnswer s.centreLink f (one 0 ++ one h)).links
        ∧ e.st.centre = (s.withAnswer s.centreLink f (one 0 ++ one h)).centre
        ∧ (∀ g, g ≠ h → e.st.ticket g = s.ticket g ∧ e.st.dueOf g = s.dueOf g)
        ∧ e.out = [.arbiter])

/-! ## Approach modes -/

/-- R123, R131, R75, R62: a cause that joins a set raises the event of its name once, with the approach, span 0 and
handle 0, if it is WEIGH_LOSS, WEIGH_SILENT, GANTRY_FAULT or DETECTOR_FAULT, and no event otherwise. Joining an empty
set, it then has the divert-all line asserted, the NEARING tickets countermanded, with the skip count following the
head, and every lane in use derived again, after which each wants DIVERT; joining another it changes only the set; a
cause already held changes nothing. R132: a cause that leaves raises nothing; the last one has the line released, out
of reset, every lane in use derived again, and then the arbiter is to run; another changes only the set, and one not
held changes nothing. PART_STATE at the reports of the part state, and OVERLOAD at its acknowledgement, join or leave
both sets in the one change (R124, R134, R136). The order of the countermand and the derivation, of the derivation and
the arbiter, and A before B, are the model's choices (log 6). -/
def Obligations.FirstCauseRestrictsAndLastOpens : Prop :=
  (∀ (a : Approach) (c : Cause) (s : State),
    let bit : BitVec 8 := BitVec.twoPow 8 c.index
    let holding (causes : BitVec 8) : State := { s with modes := s.modes.set a { s.mode a with causes := causes } }
    let joined := holding ((s.mode a).causes ||| bit)
    let left := holding ((s.mode a).causes &&& ~~~bit)
    let told : State := match c with
      | .weighLoss => joined.raise .weighLoss (some a) none 0
      | .weighSilent => joined.raise .weighSilent (some a) none 0
      | .gantryFault => joined.raise .gantryFault (some a) none 0
      | .detectorFault => joined.raise .detectorFault (some a) none 0
      | .partState | .centreOrder | .poolExhausted | .overload => joined
    let t := (act (.addCause a c) s).st
    let u := (act (.removeCause a c) s).st
    (s.holds a c = true → act (.addCause a c) s = { st := s, out := [] })
    ∧ (s.holds a c = false → (s.mode a).causes ≠ 0 → act (.addCause a c) s = { st := told, out := [] })
    ∧ ((s.mode a).causes = 0 →
      act (.addCause a c) s = entersDivertAll a told
        ∧ t.centre = told.centre
        ∧ (∀ l : LaneNo, l.val < s.profile.lanes.get a → (t.lane a l).wanted = .divert)
        ∧ (t.mode a).causes = bit ∧ (t.mode a).lineAsserted = true
        ∧ (t.hold a).nearing = [] ∧ (t.hold a).bay = (s.hold a).bay ∧ SkipFollowsHead s t a
        ∧ t.table.tickets = s.table.tickets.map (fun u =>
            if u.approach = a ∧ u.state = .nearing then u.turnedAway else u)
        ∧ t.account = s.account)
    ∧ (s.holds a c = false → act (.removeCause a c) s = { st := s, out := [] })
    ∧ (s.holds a c = true → (s.mode a).causes &&& ~~~bit ≠ 0 →
        act (.removeCause a c) s = { st := left, out := [] })
    ∧ ((s.mode a).causes = bit →
      act (.removeCause a c) s = becomesOpen a left ∧ u.centre = s.centre
        ∧ (u.mode a).causes = 0 ∧ (s.inReset = false → (u.mode a).lineAsserted = false)
        ∧ .arbiter ∈ (act (.removeCause a c) s).out))
    ∧ ∀ s : State, act .leftRunning s = addedOnBoth .partState s ∧ act .enteredRunning s = removedFromBoth .partState s
        ∧ act .overloadAcknowledged s = removedFromBoth .overload s

/-- SET APPROACH (R135) on an approach that other causes hold restricted: CENTRE_ORDER joins or leaves its set, and
nothing else changes; the answer carries the set as it then stands, and so it does when the set empties or was empty,
after what follows from that. ACKNOWLEDGE OVERLOAD (R136, R36): not held, DONE and no effect; held with a span 1 to S
overloaded, WRONG_STATE and no effect; held with none, it leaves both sets, which other causes keep from emptying here,
and is answered DONE. Either is refused BAD_VALUE, and changes nothing, for a payload of another length or a field out
of its range. LOSS_UNTIL (R126): when the loss-until time has come, it becomes absent and WEIGH_LOSS leaves the set;
with another cause held nothing else changes. -/
def Obligations.CausesLeaveByOrderAndByTime : Prop :=
  (∀ (f : Frame) (s : State) (l : Liveness), CentreAsks s f l →
    (f.payload.length ≠ 2 ∨ 1 < byteAt f.payload 0 ∨ 1 < byteAt f.payload 1 →
      exec (.setApproach s.centreLink f) s = .next (s.answeredCentre f [4]))
    ∧ (f.payload ≠ [] → exec (.acknowledgeOverload s.centreLink f) s = .next (s.answeredCentre f [4]))
    ∧ (∀ a : Approach, f.payload.length = 2 → byteAt f.payload 0 = (match a with | .A => 0 | .B => 1) →
      (s.mode a).causes &&& ~~~(0x02#8) ≠ 0 →
      let put (causes : BitVec 8) : State := { s with modes := s.modes.set a { s.mode a with causes := causes } }
      let sent (causes : BitVec 8) : List Byte := one 0 ++ be16 (causes.setWidth 16)
      (byteAt f.payload 1 = 1 → exec (.setApproach s.centreLink f) s
        = .next ((put ((s.mode a).causes ||| 0x02#8)).answeredCentre f (sent ((s.mode a).causes ||| 0x02#8))))
      ∧ (byteAt f.payload 1 = 0 → exec (.setApproach s.centreLink f) s
        = .next ((put ((s.mode a).causes &&& ~~~(0x02#8))).answeredCentre f
            (sent ((s.mode a).causes &&& ~~~(0x02#8))))))
    ∧ (∀ a : Approach, f.payload.length = 2 → byteAt f.payload 0 = (match a with | .A => 0 | .B => 1) →
      let taken (e : Eff) : State :=
        ((settle e).reply s.centreLink f (one 0 ++ be16 (((settle e).mode a).causes.setWidth 16))).hear
          s.centreLink 0 none
      (byteAt f.payload 1 = 1 → exec (.setApproach s.centreLink f) s
        = .next (taken (addCause a .centreOrder (s.ended s.centreLink))))
      ∧ (byteAt f.payload 1 = 0 → exec (.setApproach s.centreLink f) s
        = .next (taken (removeCause a .centreOrder (s.ended s.centreLink)))))
    ∧ (f.payload = [] →
      let heldOn (a : Approach) : Prop := (s.mode a).causes.getLsbD 7 = true
      let anyOver : Prop := ∃ i : SpanNo, i.val < s.profile.spanCount ∧ (s.spanRec i).overloaded = true
      (¬ heldOn .A → ¬ heldOn .B → exec (.acknowledgeOverload s.centreLink f) s = .next (s.answeredCentre f [0]))
      ∧ (heldOn .A ∨ heldOn .B → anyOver →
          exec (.acknowledgeOverload s.centreLink f) s = .next (s.answeredCentre f [5]))
      ∧ (heldOn .A → heldOn .B → ¬ anyOver → (∀ a, (s.mode a).causes &&& ~~~(0x80#8) ≠ 0) →
          exec (.acknowledgeOverload s.centreLink f) s = .next
            (({ s with modes := ⟨{ s.modes.A with causes := s.modes.A.causes &&& ~~~(0x80#8) },
                { s.modes.B with causes := s.modes.B.causes &&& ~~~(0x80#8) }⟩ } : State).answeredCentre f [0]))
      ∧ (heldOn .A ∨ heldOn .B → ¬ anyOver → exec (.acknowledgeOverload s.centreLink f) s = .next
          (((settle { st := s.ended s.centreLink, out := [.overloadAcknowledged] }).reply s.centreLink f [0]).hear
            s.centreLink 0 none))))
    ∧ ∀ (a : Approach) (s : State) (u : Time), s.inReset = false → (s.mode a).lossUntil = some u →
        hasCome s.now u = true →
        let absent : State := s.updMode a fun m => { m with lossUntil := none }
        exec (.lossUntil a) s = .next (settle (removeCause a .weighLoss absent))
        ∧ ((s.mode a).causes.getLsbD 3 = true → (s.mode a).causes &&& ~~~(0x08#8) ≠ 0 →
          let m : Mode := { s.mode a with lossUntil := none, causes := (s.mode a).causes &&& ~~~(0x08#8) }
          exec (.lossUntil a) s = .next { s with modes := s.modes.set a m })

/-! ## Centre services -/

/-- R162, R163: QUERY PART, QUERY SPAN and QUERY LINE change nothing but for the answer and the hearing, and carry
their fields in order, each of its size; a payload of another length, or a number out of range, is BAD_VALUE. That the
overloaded field of QUERY SPAN is a byte of 1 for yes and 0 for no is the model's deduction (log 16). -/
def Obligations.QueriesOfPartSpanAndLine : Prop :=
  ∀ (f : Frame) (s : State) (l : Liveness), CentreAsks s f l →
    (f.payload ≠ [] → exec (.queryPart s.centreLink f) s = .next (s.answeredCentre f [4]))
    ∧ (f.payload.length ≠ 1 → exec (.querySpan s.centreLink f) s = .next (s.answeredCentre f [4])
        ∧ exec (.queryLine s.centreLink f) s = .next (s.answeredCentre f [4]))
    ∧ (∀ b : Byte, f.payload = [b] →
        (b.toNat = 0 ∨ 4 < b.toNat → exec (.querySpan s.centreLink f) s = .next (s.answeredCentre f [4]))
        ∧ (20 ≤ b.toNat → exec (.queryLine s.centreLink f) s = .next (s.answeredCentre f [4])))
    ∧ (f.payload = [] → exec (.queryPart s.centreLink f) s = .next (s.answeredCentre f (one 0
      ++ one s.part.state.code ++ one s.part.resetCause.code ++ four s.part.timebase.toNat
      ++ one (60 - s.table.tickets.length) ++ one s.table.freeCells ++ one s.table.closeQueue.length
      ++ be16 (s.centre.summary.setWidth 16) ++ two s.table.poolOverruns ++ two s.table.intrusions
      ++ two s.table.violations ++ two s.table.strays ++ two s.table.closeLost
      ++ one (match s.admission.turn with | .A => 0 | .B => 1) ++ one s.admission.skip.A ++ one s.admission.skip.B
      ++ be16 (s.modes.A.causes.setWidth 16) ++ be16 (s.modes.B.causes.setWidth 16))))
    ∧ (∀ (b : Byte) (i : SpanNo), f.payload = [b] → b.toNat = i.val + 1 →
        let r := s.spanRec i
        exec (.querySpan s.centreLink f) s = .next (s.answeredCentre f (one 0
          ++ four r.massLimit ++ four (r.massTarget.getD 0) ++ one r.countLimit ++ one (r.countTarget.getD 0)
          ++ four r.mass ++ one r.count ++ four r.forcedMass ++ one r.forcedCount ++ four r.presumed
          ++ four r.onMass ++ one r.onCount ++ one (if r.overloaded = true then 1 else 0))))
    ∧ (∀ (b : Byte) (d : LineNo), f.payload = [b] → b.toNat = d.val →
        let r := s.line d
        exec (.queryLine s.centreLink f) s = .next (s.answeredCentre f (one 0
          ++ (assignmentFields r.point).flatMap one ++ one (match r.polarity with | .high => 0 | .low => 1)
          ++ one r.state.code ++ four r.lastCapture.toNat ++ two r.noise)))

/-- R162, R163: QUERY TICKET, QUERY LINK and READ PROFILE ITEM, in the same way; a handle that no live ticket has is
NO_TICKET; a ticket without a due (STALLED, or OVERDUE in the bay) gives a due kind and a due of 0; the queue figure
counts the answer where it waits on the link asked for, which is the model's deduction (log 27). -/
def Obligations.QueriesOfTicketLinkAndItem : Prop :=
  ∀ (f : Frame) (s : State) (l : Liveness), CentreAsks s f l →
    (f.payload.length ≠ 1 → exec (.queryTicket s.centreLink f) s = .next (s.answeredCentre f [4])
        ∧ exec (.queryLink s.centreLink f) s = .next (s.answeredCentre f [4]))
    ∧ (∀ b : Byte, f.payload = [b] → s.ticket b.toNat = none →
      exec (.queryTicket s.centreLink f) s = .next (s.answeredCentre f [6]))
    ∧ (∀ (b : Byte) (t : Ticket), f.payload = [b] → s.ticket b.toNat = some t →
        let fields (dueKind due : Nat) : List Byte := one 0
          ++ one t.handle ++ one t.origin.code ++ one (match t.approach with | .A => 0 | .B => 1)
          ++ one (match t.lane with | none => 0 | some j => j.val + 1) ++ four (t.weighTime.getD 0).toNat
          ++ two (t.speed.getD 0) ++ four (t.gross.getD 0)
          ++ one (match t.confidence with | none => 0 | some c => c.code) ++ four t.mass
          ++ one (match t.decision with | none => 0 | some x => x.code)
          ++ one (match t.reason with | none => 0 | some x => x.code) ++ one t.state.code
          ++ be16 (t.claims.setWidth 16) ++ one (if t.forced = true then 1 else 0)
          ++ one (match t.span with | none => 0 | some i => i.val + 1) ++ one dueKind ++ four due
          ++ be16 (t.flags.setWidth 16) ++ one t.axles.length ++ t.axles.flatMap two
        (∀ d, s.dueOf t.handle = some d → exec (.queryTicket s.centreLink f) s
          = .next (s.answeredCentre f (fields d.kind.code d.due.toNat)))
        ∧ (s.dueOf t.handle = none → exec (.queryTicket s.centreLink f) s = .next (s.answeredCentre f (fields 0 0))))
    ∧ (∀ b : Byte, f.payload = [b] → 4 ≤ b.toNat →
        exec (.queryLink s.centreLink f) s = .next (s.answeredCentre f [4]))
    ∧ (∀ (b : Byte) (k : LinkNo), f.payload = [b] → b.toNat = k.val →
        let r := s.link k
        exec (.queryLink s.centreLink f) s = .next (s.answeredCentre f (one 0
          ++ one r.chain ++ one (r.queue.length + if k = s.centreLink then 1 else 0) ++ two r.framing ++ two r.noise
          ++ two r.length ++ two r.check ++ two r.strayHop ++ two r.strayAnswer)))
    ∧ (f.payload.length ≠ 2 → exec (.readProfileItem s.centreLink f) s = .next (s.answeredCentre f [4]))
    ∧ (∀ b c : Byte, f.payload = [b, c] → itemOf b.toNat c.toNat = none →
        exec (.readProfileItem s.centreLink f) s = .next (s.answeredCentre f [4]))
    ∧ (∀ (b c : Byte) (x : Item), f.payload = [b, c] → itemOf b.toNat c.toNat = some x →
        exec (.readProfileItem s.centreLink f) s = .next (s.answeredCentre f (one 0 ++ four (s.itemValue x))))

/-- R162, R163: QUERY STATION changes nothing but for the answer and the hearing, and carries the entry: role NONE and
zeros for an unbound one; role, approach, lane set, liveness and silence due for a bound one; and for a gantry the four
aspect records of its approach after them. A payload of another length, or a position that is none, is BAD_VALUE. -/
def Obligations.QueriesOfStations : Prop :=
  ∀ (f : Frame) (s : State) (l : Liveness), CentreAsks s f l →
    let code (a : Approach) : Nat := match a with | .A => 0 | .B => 1
    let due (x : Liveness) : List Byte := match x with
      | .live t => one 1 ++ four t.toNat
      | .silent => one 2 ++ four 0
    let shown (x : Option Nat) : List Byte := one (match x with | none => 255 | some n => n)
    let order (o : OrderState) : List Byte := match o with
      | .idle => one 1 ++ one 0 ++ four 0
      | .awaiting tag t => one 2 ++ [tag] ++ four t.toNat
      | .failed => one 3 ++ one 0 ++ four 0
    let lane (r : AspectRec Aspect) : List Byte := one r.wanted.code ++ shown (r.ordered.map Aspect.code)
      ++ shown (r.confirmed.map Aspect.code) ++ order r.order ++ shown (r.pending.map Aspect.code)
    let bay (r : AspectRec BayAspect) : List Byte := one r.wanted.code ++ shown (r.ordered.map BayAspect.code)
      ++ shown (r.confirmed.map BayAspect.code) ++ order r.order ++ shown (r.pending.map BayAspect.code)
    (f.payload.length ≠ 2 → exec (.queryStation s.centreLink f) s = .next (s.answeredCentre f [4]))
    ∧ (∀ b c : Byte, f.payload = [b, c] → 4 ≤ b.toNat ∨ c.toNat = 0 ∨ 4 < c.toNat →
        exec (.queryStation s.centreLink f) s = .next (s.answeredCentre f [4]))
    ∧ ∀ (b c : Byte) (k : LinkNo) (q : PosNo), f.payload = [b, c] → b.toNat = k.val → c.toNat = q.val + 1 →
        (s.entry k q = .unbound →
          exec (.queryStation s.centreLink f) s = .next (s.answeredCentre f [0, 0, 0, 0, 0, 0, 0, 0, 0, 0]))
        ∧ (∀ a lanes x, s.entry k q = .bound (.weigh a lanes) x →
          exec (.queryStation s.centreLink f) s = .next (s.answeredCentre f
            (one 0 ++ one 1 ++ one (code a) ++ be16 (lanes.setWidth 16) ++ due x)))
        ∧ (∀ a x, s.entry k q = .bound (.gantry a) x →
          exec (.queryStation s.centreLink f) s = .next (s.answeredCentre f
            (one 0 ++ one 2 ++ one (code a) ++ two 0 ++ due x ++ lane (s.lane a 0) ++ lane (s.lane a 1)
              ++ lane (s.lane a 2) ++ bay (s.bay a))))
        ∧ (∀ x, s.entry k q = .bound .centre x →
          exec (.queryStation s.centreLink f) s = .next (s.answeredCentre f
            (one 0 ++ one 3 ++ one 0 ++ two 0 ++ due x)))

/-- READ EVENTS (R164): the summary as it stands is returned and every flag cleared. COLLECT CLOSE (R165): the oldest
summary leaves the queue and is returned with its fields in the order of R15; an empty queue is answered EMPTY. SET
ALERT MASK (R166): a mask of two bytes with the four high bits clear is taken. A payload that is not as said is
BAD_VALUE, and nothing else changes. At a full queue the answer is dropped, with LINK_ERROR (R143): the flags are
cleared all the same, before LINK_ERROR sets its own, and the summary is lost. -/
def Obligations.TheCentreReadsCollectsAndMasks : Prop :=
  ∀ (f : Frame) (s : State) (l : Liveness), CentreAsks s f l →
    (f.payload ≠ [] → exec (.readEvents s.centreLink f) s = .next (s.answeredCentre f [4])
        ∧ exec (.collectClose s.centreLink f) s = .next (s.answeredCentre f [4]))
    ∧ (f.payload = [] → exec (.readEvents s.centreLink f) s = .next
        (({ s with centre := { s.centre with summary := 0 } } : State).answeredCentre f
          (one 0 ++ be16 (s.centre.summary.setWidth 16))))
    ∧ (f.payload = [] → s.table.closeQueue = [] →
        exec (.collectClose s.centreLink f) s = .next (s.answeredCentre f [1]))
    ∧ (∀ x xs, f.payload = [] → s.table.closeQueue = x :: xs →
        exec (.collectClose s.centreLink f) s = .next
          (({ s with table := { s.table with closeQueue := xs } } : State).answeredCentre f (one 0
            ++ one x.handle ++ one x.origin.code ++ one (match x.approach with | .A => 0 | .B => 1)
            ++ one (match x.lane with | none => 0 | some j => j.val + 1) ++ one x.outcome.code
            ++ one (match x.decision with | none => 0 | some d => d.code)
            ++ one (match x.reason with | none => 0 | some r => r.code) ++ be16 (x.flags.setWidth 16)
            ++ four (x.weighTime.getD 0).toNat ++ four x.closeTime.toNat ++ four x.mass)))
    ∧ (∀ b c : Byte, f.payload = [b, c] → b.toNat < 16 →
        exec (.setAlertMask s.centreLink f) s = .next
          (({ s with centre := { s.centre with mask := (b ++ c).setWidth 12 } } : State).answeredCentre f [0]))
    ∧ (∀ b c : Byte, f.payload = [b, c] → 16 ≤ b.toNat →
        exec (.setAlertMask s.centreLink f) s = .next (s.answeredCentre f [4]))
    ∧ (f.payload.length ≠ 2 → exec (.setAlertMask s.centreLink f) s = .next (s.answeredCentre f [4]))

/-- REPORT_DUE (R167): the due moves by REPORT_PERIOD; a LIVE centre is offered the spans in use and both cause sets,
and a SILENT one nothing; a full queue drops the report and raises LINK_ERROR (R143). That the overloaded field is a
byte of 1 for yes and 0 for no is the model's deduction (log 16). -/
def Obligations.ReportDueOffersTheSpans : Prop :=
  ∀ (s : State) (due : Time), s.inReset = false → s.centre.reportDue = some due → hasCome s.now due = true →
    let s' : State := { s with centre := { s.centre with reportDue := some (after due s.profile.reportPeriod) } }
    let payload := one s.profile.spanCount
      ++ (s.spansInUse.flatMap fun i => four (s.spanRec i).mass ++ one (s.spanRec i).count ++ four (s.spanRec i).onMass
          ++ one (s.spanRec i).onCount ++ one (if (s.spanRec i).overloaded = true then 1 else 0))
      ++ be16 (s.modes.A.causes.setWidth 16) ++ be16 (s.modes.B.causes.setWidth 16)
    (s.centreLive = false → exec .reportDue s = .next s')
      ∧ (s.centreLive = true → s.hasRoom s.centreLink = true →
          exec .reportDue s = .next { s' with links := upd s.links s.centreLink fun r =>
            { r with queue := r.queue ++ [{ hop := 1, code := 0x31, tag := 0, payload := payload,
                                            resetAnswer := false }] } })
      ∧ (s.centreLive = true → s.hasRoom s.centreLink = false →
          exec .reportDue s = .next (s'.raise .linkError none none 0))

/-! ## Profile and part states -/

/-- SET PROFILE ITEM (R170, R171). The items by number and index (R169), and the checks in their order: shape,
writability of a G item (numbers 1 to 11), range. A refused one changes nothing. An accepted one makes the item hold
the value and changes no other item; for an item without an effect beyond itself nothing else changes, nor for one that
holds the value already, but for the two limits. A limit is taken by the span account. LANES (R119): a lane that goes
out of use has its reset values, and the approach's WEIGH_SILENT is judged (R125); one that comes into use on a
restricted approach wants DIVERT and is to attempt it. BAY_CAPACITY (R106, R119): the bay signal's record has its reset
values when it goes out of use, and those of HOLD when it comes into use; a record that was FAILED is reported.
LINE_ASSIGN (R47): the line stands for the new point, and a STUCK line's report moves between approaches, the old one
first, which is the model's deduction (log 17). LINE_POLARITY (R47): the line takes a leading or a trailing edge.
REPORT_PERIOD (R167): the due is set, kept or discarded. -/
def Obligations.ProfileItemsAreWritten : Prop :=
  (∀ (number index : Nat) (x : Item), itemOf number index = some x ↔ x.numbered = (number, index))
  ∧ (∀ (s : State) (p : List Byte),
    let number := byteAt p 0
    let index := byteAt p 1
    let v := longAt p 2
    let closed : Prop := number ≤ 11 ∧ s.part.state ≠ .unconfigured
    (p.length ≠ 6 ∨ (∀ x : Item, x.numbered ≠ (number, index)) → s.checkSet p = .error .badValue)
      ∧ ∀ x : Item, p.length = 6 → x.numbered = (number, index) →
        (closed → s.checkSet p = .error .wrongState)
          ∧ (¬ closed → ¬ x.Allows v → s.checkSet p = .error .badValue)
          ∧ (¬ closed → x.Allows v → s.checkSet p = .ok (x, v)))
  ∧ ∀ (f : Frame) (s : State) (l : Liveness), CentreAsks s f l →
    (∀ st, s.checkSet f.payload = .error st →
      exec (.setProfileItem s.centreLink f) s = .next (s.answeredCentre f (one st.code)))
    ∧ (∀ x v, s.checkSet f.payload = .ok (x, v) →
      let written := exec (.setProfileItem s.centreLink f) s
      let done (e : Eff) : State := ((settle e).reply s.centreLink f [0]).hear s.centreLink 0 none
      let s' := s.ended s.centreLink
      let limit : Prop := (∃ i, x = .spanLimit i) ∨ ∃ i, x = .spanCountLimit i
      (∃ t, written = .next t ∧ t.itemValue x = v ∧ ∀ y, y ≠ x → t.itemValue y = s.itemValue y)
        ∧ ((∀ a, x ≠ .lanes a) → (∀ a, x ≠ .bayCapacity a) → (∀ d, x ≠ .lineAssign d) → (∀ d, x ≠ .linePolarity d) →
          ¬ limit → x ≠ .reportPeriod →
          ∃ p : Profile, written = .next (({ s with profile := p } : State).answeredCentre f [0]))
        ∧ (s.itemValue x = v → ¬ limit → written = .next (s.answeredCentre f [0]))
        ∧ (∀ i, x = .spanLimit i → written = .next (done (writeMassLimit i v s')))
        ∧ (∀ i, x = .spanCountLimit i → written = .next (done (writeCountLimit i v s')))
        ∧ (∀ a, x = .lanes a → s.profile.lanes.get a ≠ v →
          ∃ e, written = .next (done e) ∧ (∃ gs, e.out = gs ++ [.judgeWeigh a])
            ∧ ∀ j : LaneNo,
              (v ≤ j.val → j.val < s.profile.lanes.get a →
                e.st.lane a j = laneReset ∧ ((s.lane a j).order = .failed → .judgeGantry a ∈ e.out))
              ∧ (j.val < v → s.profile.lanes.get a ≤ j.val → (s.mode a).causes ≠ 0 →
                e.st.lane a j = { laneReset with wanted := .divert }
                  ∧ .attemptLane a j .divert ((s.laneHead a j).getD 0) ∈ e.out)
              ∧ ((j.val < v ↔ j.val < s.profile.lanes.get a) → e.st.lane a j = s.lane a j))
        ∧ (∀ a, x = .bayCapacity a → s.profile.bayCapacity.get a ≠ v →
          ∃ e, written = .next (done e)
            ∧ (v = 0 ∨ s.profile.bayCapacity.get a = 0 ∧ s.signal a = .idle → e.st.bay a = bayReset)
            ∧ (v ≠ 0 → s.profile.bayCapacity.get a ≠ 0 → e.st.bay a = s.bay a ∧ e.out = [])
            ∧ (v = 0 → (s.bay a).order = .failed → .judgeGantry a ∈ e.out))
        ∧ (∀ d pt, x = .lineAssign d → assignmentOf v = some pt → (s.line d).point ≠ pt →
          let now' : State := { s' with lines := upd s.lines d fun r => { r with point := pt } }
          let moves : Prop := (s.line d).state = .stuck ∧ (s.line d).point.map Point.approach ≠ pt.map Point.approach
          let fewer (s : State) (a : Approach) : State := s.updMode a fun m => { m with stuckCount := m.stuckCount - 1 }
          let more (s : State) (a : Approach) : State := s.updMode a fun m => { m with stuckCount := m.stuckCount + 1 }
          let lost (a : Approach) : List Signal :=
            if (s.mode a).stuckCount ≤ 1 then [.removeCause a .detectorFault] else []
          let won (a : Approach) : List Signal :=
            if (s.mode a).stuckCount = 0 then [.addCause a .detectorFault] else []
          (¬ moves → written = .next (done { st := now', out := [] }))
            ∧ (∀ p q, moves → (s.line d).point = some p → pt = some q → written = .next (done
                { st := more (fewer now' p.approach) q.approach, out := lost p.approach ++ won q.approach }))
            ∧ (∀ p, moves → (s.line d).point = some p → pt = none →
                written = .next (done { st := fewer now' p.approach, out := lost p.approach }))
            ∧ (∀ q, moves → (s.line d).point = none → pt = some q →
                written = .next (done { st := more now' q.approach, out := won q.approach })))
        ∧ (∀ d, x = .linePolarity d → (s.line d).polarity ≠ (if v = 0 then .high else .low) →
          let r : LineRec := { s.line d with polarity := if v = 0 then .high else .low }
          let shows : Prop := r.level = match r.polarity with | .high => true | .low => false
          let gone : LineRec := { r with state := .absent, confirmDue := none, stuckDue := none }
          let become (r : LineRec) : State := { s' with lines := upd s.lines d fun _ => r }
          (shows → (s.line d).state = .absent → written = .next (done { out := [], st := become { r with
              state := .confirming, lastCapture := s.now, confirmDue := some (after s.now s.profile.minPresence),
              stuckDue := some (after s.now (s.profile.stuckLimit * 1000)) } }))
            ∧ (shows → (s.line d).state ≠ .absent → written = .next (done { st := become r, out := [] }))
            ∧ (¬ shows → (s.line d).state = .absent → written = .next (done { st := become r, out := [] }))
            ∧ (¬ shows → (s.line d).state = .confirming →
                written = .next (done { st := become { gone with noise := countUp gone.noise }, out := [] }))
            ∧ (¬ shows → (s.line d).state = .present → written = .next (done { st := become gone, out := [] }))
            ∧ (∀ pt, ¬ shows → (s.line d).state = .stuck → r.point = some pt → written = .next (done
                { st := (become gone).updMode pt.approach fun m => { m with stuckCount := m.stuckCount - 1 },
                  out := if (s.mode pt.approach).stuckCount ≤ 1 then [.removeCause pt.approach .detectorFault] else [] }))
            ∧ (¬ shows → (s.line d).state = .stuck → r.point = none →
                written = .next (done { st := become gone, out := [] })))
        ∧ (x = .reportPeriod → s.profile.reportPeriod ≠ v →
          let due : Option Time := if v = 0 then none
            else if s.profile.reportPeriod = 0 then some (after s.now v) else s.centre.reportDue
          written = .next (({ s with profile := { s.profile with reportPeriod := v },
                                     centre := { s.centre with reportDue := due } } : State).answeredCentre f [0])))

/-- COMMIT PROFILE (R173, R174): with a payload BAD_VALUE; outside UNCONFIGURED WRONG_STATE; a profile that fails one
of R173's checks, taken in order, is BAD_PROFILE with the five result bytes of the first failure: a span's length and
limit, an approach's distances, a required point with no line or a second one, a line whose point is not required;
otherwise the part is in CLEARING, with its clearance due and every span in use presumed loaded; WEIGH_LOSS is then
reported for both approaches (R126), for A first, which is the model's choice (log 6), and both hold it after the
request. CLEARANCE_DUE (R175): the part enters RUNNING, without a clearance due; the presumed loads leave the spans in
use; PART_STATE leaves both sets, and the arbiter runs. -/
def Obligations.CommitStartsClearingAndTheDueEndsIt : Prop :=
  (∀ s : State,
    let code (a : Approach) : Byte := match a with | .A => 0 | .B => 1
    let spans : List SpanNo := [0, 1, 2, 3].filter fun i => decide (i.val < s.profile.spanCount)
    let lanes (a : Approach) : List LaneNo := [0, 1, 2].filter fun j => decide (j.val < s.profile.lanes.get a)
    let boundaries : List (Fin 3) := [0, 1, 2].filter fun k => decide (k.val + 1 < s.profile.spanCount)
    let points (a : Approach) : List (Point × Byte × Byte) :=
      (lanes a).map (fun j => (⟨a, .gantry j⟩, 1, BitVec.ofNat 8 (j.val + 1)))
        ++ (if 0 < s.profile.bayCapacity.get a then [(⟨a, .bayExit⟩, 2, 0)] else [])
        ++ [(⟨a, .entry⟩, 3, 0)]
        ++ boundaries.map (fun k => (⟨a, .boundary k⟩, 4, BitVec.ofNat 8 (k.val + 1)))
        ++ [(⟨a, .exit⟩, 5, 0)]
    let assigned (pt : Point) : List LineNo := allLines.filter fun d => decide ((s.line d).point = some pt)
    let spanChecks (i : SpanNo) : List (Bool × List Byte) :=
      [(decide (s.profile.spanLength.get i = 0), [2, BitVec.ofNat 8 (i.val + 1), 0, 0, 0]),
       (decide (s.profile.spanLimit.get i = 0), [12, BitVec.ofNat 8 (i.val + 1), 0, 0, 0])]
    let distanceChecks (a : Approach) : List (Bool × List Byte) :=
      [(decide (s.profile.distWeighGantry.get a = 0), [5, code a, 0, 0, 0]),
       (decide (s.profile.distGantryEntry.get a = 0), [6, code a, 0, 0, 0]),
       (decide (0 < s.profile.bayCapacity.get a ∧ s.profile.distBayEntry.get a = 0), [7, code a, 0, 0, 0])]
    let pointCheck (x : Point × Byte × Byte) : Bool × List Byte :=
      (decide ((assigned x.1).length ≠ 1),
        [8, (match (assigned x.1)[1]? with | none => 255 | some d => BitVec.ofNat 8 d.val), code x.1.approach, x.2.1, x.2.2])
    let lineCheck (d : LineNo) : Bool × List Byte :=
      (match (s.line d).point with
        | none => false
        | some pt => decide (pt ∉ (points pt.approach).map Prod.fst), [8, BitVec.ofNat 8 d.val, 0, 0, 0])
    let checks := spans.flatMap spanChecks ++ [Approach.A, .B].flatMap distanceChecks
      ++ ([Approach.A, .B].flatMap points).map pointCheck ++ allLines.map lineCheck
    s.profileFault = (checks.find? Prod.fst).map Prod.snd)
  ∧ (∀ (f : Frame) (s : State) (l : Liveness), CentreAsks s f l →
    (f.payload ≠ [] → exec (.commitProfile s.centreLink f) s = .next (s.answeredCentre f [4]))
      ∧ (f.payload = [] → s.part.state ≠ .unconfigured →
          exec (.commitProfile s.centreLink f) s = .next (s.answeredCentre f [5]))
      ∧ (∀ bytes, f.payload = [] → s.part.state = .unconfigured → s.profileFault = some bytes →
          exec (.commitProfile s.centreLink f) s = .next (s.answeredCentre f (one 8 ++ bytes)))
      ∧ (f.payload = [] → s.part.state = .unconfigured → s.profileFault = none →
          ∃ e, exec (.commitProfile s.centreLink f) s
              = .next (((settle e).reply s.centreLink f [0]).hear s.centreLink 0 none)
            ∧ e.st.part = { s.part with
                state := .clearing, clearanceDue := some (after s.now (s.profile.clearance * 1000)) }
            ∧ (∀ i : SpanNo, i.val < s.profile.spanCount →
                (e.st.spanRec i).presumed = (s.spanRec i).massLimit
                  ∧ (e.st.spanRec i).mass = (s.spanRec i).mass - (s.spanRec i).presumed + (s.spanRec i).massLimit)
            ∧ (∃ gs, e.out = gs ++ [.weighLoss .A, .weighLoss .B]) ∧ e.st.table = s.table
            ∧ ∀ a, (((settle e).reply s.centreLink f [0]).hear s.centreLink 0 none).holds a .weighLoss = true))
    ∧ ∀ (s : State) (due : Time), s.inReset = false → s.part.state = .clearing → s.part.clearanceDue = some due →
        hasCome s.now due = true →
        ∃ e, exec .clearanceDue s = .next (settle e)
          ∧ e.st.part = { s.part with state := .running, clearanceDue := none }
          ∧ (∀ i : SpanNo, i.val < s.profile.spanCount → (e.st.spanRec i).presumed = 0
              ∧ (e.st.spanRec i).mass = (s.spanRec i).mass - (s.spanRec i).presumed)
          ∧ (∃ gs, e.out = gs ++ [.enteredRunning, .arbiter]) ∧ e.st.table = s.table
          ∧ ∀ a, (settle e).holds a .partState = false

/-- RECONFIGURE and RESUME (R176, R177, R178): each in its own part state alone. RECONFIGURE makes the part DRAINING,
reports it, which puts PART_STATE on both approaches, and closes an escort in the escort slot CANCELLED; the part is
UNCONFIGURED when no ticket is then live, and the answer carries DONE and the part state. RESUME makes the part RUNNING,
PART_STATE leaves both sets, the arbiter runs, and the answer carries DONE and the part state. -/
def Obligations.ReconfigureDrainsAndResumeRuns : Prop :=
  ∀ (f : Frame) (s : State) (l : Liveness), CentreAsks s f l →
    (f.payload ≠ [] → exec (.reconfigure s.centreLink f) s = .next (s.answeredCentre f [4])
        ∧ exec (.resume s.centreLink f) s = .next (s.answeredCentre f [4]))
      ∧ (f.payload = [] → s.part.state ≠ .running →
          exec (.reconfigure s.centreLink f) s = .next (s.answeredCentre f [5]))
      ∧ (f.payload = [] → s.part.state ≠ .draining →
          exec (.resume s.centreLink f) s = .next (s.answeredCentre f [5]))
      ∧ (f.payload = [] → s.part.state = .running →
          let left := settle { st := { s.ended s.centreLink with part := { s.part with state := .draining } },
                               out := [.leftRunning] }
          let answered (u : State) : State := if u.table.tickets = []
            then (({ u with part := { u.part with state := .unconfigured } } : State).reply s.centreLink f [0, 1]).hear
              s.centreLink 0 none
            else (u.reply s.centreLink f [0, 4]).hear s.centreLink 0 none
          (∃ t, exec (.reconfigure s.centreLink f) s = .next t ∧ (∀ a, t.holds a .partState = true)
            ∧ t.part = { s.part with state := if t.table.tickets = [] then .unconfigured else .draining })
          ∧ (s.admission.escortSlot = none → exec (.reconfigure s.centreLink f) s = .next (answered left))
          ∧ (∀ h t, s.admission.escortSlot = some h → s.ticket h = some t → t.state = .escortWait →
              ∃ e, exec (.reconfigure s.centreLink f) s = .next (answered (settle e))
                ∧ Closes left t .cancelled e ∧ e.st.admission.escortSlot = none))
      ∧ (f.payload = [] → s.part.state = .draining →
          ∃ t, t = settle { st := { s.ended s.centreLink with part := { s.part with state := .running } },
                            out := [.enteredRunning, .arbiter] }
            ∧ exec (.resume s.centreLink f) s = .next ((t.reply s.centreLink f [0, 3]).hear s.centreLink 0 none)
            ∧ ∀ a, t.holds a .partState = false)

/-- RESET PART (a payload is BAD_VALUE), the sending of its answer, SUPPLY_RESET and LINE_RESET (R133, R179, R180): the
answer DONE is queued and nothing else changes; when it has been sent, the reset begins, and so it does at once where
the link has no room for the answer; a part held in reset has empty transmit queues, links that do not send, and both
divert-all lines asserted. Of kinds that overlap, SUPPLY stands before LINE and LINE before COMMAND (R179). That the
part's own record keeps its state, its timebase and its last cause until the reset ends is the model's deduction (log
12). -/
def Obligations.ResetsBegin : Prop :=
  let holds (s t : State) (kind : ResetKind) : Prop :=
    t.part = { s.part with held := some (if s.part.held = some .supply ∨ kind = .supply then .supply
      else if s.part.held = some .line ∨ kind = .line then .line else .command) }
      ∧ (∀ k, (t.link k).queue = [] ∧ (t.link k).lineState = .listening)
      ∧ ∀ a, (t.mode a).lineAsserted = true
  (∀ (f : Frame) (s : State) (l : Liveness), CentreAsks s f l → f.payload = [] →
    s.hasRoom s.centreLink = true →
    exec (.resetPart s.centreLink f) s = .next
      (({ s.ended s.centreLink with links := upd (s.ended s.centreLink).links s.centreLink fun r =>
          { r with queue := r.queue ++ [{ hop := f.hop, code := 0x03, tag := f.tag, payload := [0],
                                          resetAnswer := true }] } } : State).heardFrom s.centreLink 0 .centre))
    ∧ (∀ (k : LinkNo) (s : State) (x : TxFrame) (xs : List TxFrame), s.inReset = false →
        (s.link k).lineState = .sending → (s.link k).queue = x :: xs → x.resetAnswer = true →
        ∃ t, exec (.frameSent k) s = .next t ∧ holds s t .command)
    ∧ (∀ (f : Frame) (s : State) (l : Liveness), CentreAsks s f l → f.payload ≠ [] →
        exec (.resetPart s.centreLink f) s = .next (s.answeredCentre f [4]))
    ∧ (∀ (f : Frame) (s : State) (l : Liveness), Arrives s s.centreLink f 0 → s.entry s.centreLink 0 = .bound .centre l →
        s.hasRoom s.centreLink = false → f.payload = [] →
        ∃ t, exec (.resetPart s.centreLink f) s = .next t ∧ holds s t .command)
    ∧ (∀ s : State, ∃ t, exec .supplyReset s = .next t ∧ holds s t .supply)
    ∧ (∀ s : State, ∃ t, exec .lineReset s = .next t ∧ holds s t .line)

/-- RESET_END (R119, R122, R150, R179): a part held in reset holds the same state afterwards whatever it held before:
State.reset, with the reset cause recorded, the strapped link sampled and the queue of commands kept; a line whose pin
is high has taken a leading edge at time 0, with its dues from there: R47 says a time at or near 0, and 0 is the model's
deduction (log 26). The pin levels' value in State.reset (log 11) and the polarity that edges are read by in a held part
(log 28) are the model's choices; what a held part does with its events (log 12) is its deduction. -/
def Obligations.ResetEndLeavesTheResetState : Prop :=
  ∀ (csel1 csel0 : Bool) (s : State) (kind : ResetKind), s.part.held = some kind →
    let k : LinkNo := match csel1, csel0 with
      | false, false => 0 | false, true => 1 | true, false => 2 | true, true => 3
    exec (.resetEnd csel1 csel0) s = .next { State.reset with
      part := { State.reset.part with resetCause := kind }, centreLink := k, directory := directoryReset k,
      pending := s.pending,
      lines := s.lines.map fun r => if r.level = true then
          { LineRec.reset true with state := .confirming, confirmDue := some 80, stuckDue := some 120000 }
        else LineRec.reset false }

/-! ## Headlines -/

/-- Spec/08, sections 8.3, 8.8 and 8.9: the bytes of every well-formed frame command, received on its link, pass the
checks of R140 and are read back as that command. -/
def Obligations.ReceivedBytesAreTheFrameSent : Prop :=
  ∀ (i : Instr) (k : LinkNo) (bs : List Byte) (code : Byte) (f : Frame) (chain : Nat), i.wf = true →
    frameOfCommand i = some (k, code, f) → encodeCommand i = some (k, bs) → f.hop.toNat ≤ chain →
    decodeReception k chain bs = .ok i

/-- R8, R9: every step keeps the handles apart and the cells counted. -/
def Obligations.EveryStepKeepsThePools : Prop :=
  ∀ s t : State, PoolsSound s → step s = .next t → PoolsSound t

/-- R16, R143, R52: no step overfills a transmit queue or the close queue; every step keeps at most one due for each
handle, and none for a free handle; and from a state of the agreement whose times are near now it keeps the deadline
list in the order of its dues (R41, R53), and the lane lists and the nearing segments in the order of their tickets'
weigh times (R60, R82). -/
def Obligations.EveryStepKeepsQueuesAndDues : Prop :=
  ∀ s t : State, step s = .next t →
    (QueuesBounded s → QueuesBounded t) ∧ (DuesUnique s → DuesUnique t) ∧ (DuesLive s → DuesLive t)
      ∧ (Agreement s → Timely s → DuesOrdered s → DuesOrdered t)
      ∧ (Agreement s → Timely s → ListsOrdered s → ListsOrdered t)

/-- Every step keeps the agreement of the part's blocks: the pools (R8, R9); the lists, slots and queues, each with
exactly the tickets of its state and approach, and no hold queue longer than BAY_CAPACITY (R7, R60, R68); each ticket's
decision, claims, span and due kind (R3 to R6, R52); each span's record as the sum of the claims and of the tickets on
it, its unforced part within its limits, its presumed load and its overloaded field (R24, R26, R27, R29, R35); the
counts of FAILED records and STUCK lines (R122); no ticket in UNCONFIGURED (R172). -/
def Obligations.EveryStepKeepsTheAgreement : Prop :=
  ∀ s t : State, Agreement s → step s = .next t → Agreement t

/-- R133: after every step a divert-all line is released only out of reset and with an empty cause set. -/
def Obligations.EveryStepGuardsTheDivertAllLines : Prop :=
  ∀ s t : State, LinesGuarded s → step s = .next t → LinesGuarded t

/-- R124, R130: after every step that leaves the part in a state other than RUNNING both approaches hold PART_STATE; and
every step keeps OVERLOAD on both approaches or on neither. -/
def Obligations.EveryStepKeepsTheSharedCauses : Prop :=
  ∀ s t : State, step s = .next t → (PartStateHeld s → PartStateHeld t) ∧ (OverloadShared s → OverloadShared t)

/-- The laws hold at State.reset. -/
def Obligations.TheLawsHoldAtReset : Prop :=
  PoolsSound State.reset ∧ QueuesBounded State.reset ∧ DuesUnique State.reset ∧ DuesLive State.reset
    ∧ DuesOrdered State.reset ∧ ListsOrdered State.reset ∧ LinesGuarded State.reset ∧ PartStateHeld State.reset
    ∧ OverloadShared State.reset ∧ Agreement State.reset
    ∧ ∀ i, (State.reset.spanRec i).Lawful
end

