-- ==== Sys2Proof/Laws/State.lean ====
section
/-! SUPPORT. What each update of a state leaves of each field: one equation a field. -/

namespace Sys2Proof.Machine

/-! ## One thing for each approach, one thing for each number -/

@[simp] theorem Both.get_set_self {α : Type} (x : Both α) (a : Approach) (v : α) : (x.set a v).get a = v := by
  cases a <;> rfl

theorem Both.get_set_of_ne {α : Type} (x : Both α) {a b : Approach} (v : α) (h : b ≠ a) :
    (x.set a v).get b = x.get b := by
  cases a <;> cases b <;> first | rfl | exact absurd rfl h

theorem vector_get {α : Type} {n : Nat} (v : Vector α n) (i : Fin n) : v.get i = v[i.val] := rfl

@[simp] theorem upd_get_self {α : Type} {n : Nat} (v : Vector α n) (i : Fin n) (f : α → α) :
    (upd v i f).get i = f (v.get i) := by
  simp [upd, vector_get]

theorem upd_get_of_ne {α : Type} {n : Nat} (v : Vector α n) {i j : Fin n} (f : α → α) (h : j ≠ i) :
    (upd v i f).get j = v.get j := by
  have hij : (i : Nat) ≠ j := fun e => h (Fin.ext e.symm)
  simp [upd, vector_get, Vector.getElem_set_ne, hij]

/-- Reading one element after an update of another or of the same. -/
theorem upd_get {α : Type} {n : Nat} (v : Vector α n) (i j : Fin n) (f : α → α) :
    (upd v i f).get j = if j = i then f (v.get j) else v.get j := by
  by_cases h : j = i
  · subst h; simp
  · simp [upd_get_of_ne v f h, h]

/-! ## State.updTicket -/

@[simp] theorem State.updTicket_part (s : State) (h : Handle) (f : Ticket → Ticket) : (s.updTicket h f).part = s.part := rfl
@[simp] theorem State.updTicket_profile (s : State) (h : Handle) (f : Ticket → Ticket) : (s.updTicket h f).profile = s.profile := rfl
@[simp] theorem State.updTicket_links (s : State) (h : Handle) (f : Ticket → Ticket) : (s.updTicket h f).links = s.links := rfl
@[simp] theorem State.updTicket_directory (s : State) (h : Handle) (f : Ticket → Ticket) : (s.updTicket h f).directory = s.directory := rfl
@[simp] theorem State.updTicket_centreLink (s : State) (h : Handle) (f : Ticket → Ticket) : (s.updTicket h f).centreLink = s.centreLink := rfl
@[simp] theorem State.updTicket_lines (s : State) (h : Handle) (f : Ticket → Ticket) : (s.updTicket h f).lines = s.lines := rfl
@[simp] theorem State.updTicket_deadlines (s : State) (h : Handle) (f : Ticket → Ticket) : (s.updTicket h f).deadlines = s.deadlines := rfl
@[simp] theorem State.updTicket_account (s : State) (h : Handle) (f : Ticket → Ticket) : (s.updTicket h f).account = s.account := rfl
@[simp] theorem State.updTicket_admission (s : State) (h : Handle) (f : Ticket → Ticket) : (s.updTicket h f).admission = s.admission := rfl
@[simp] theorem State.updTicket_tracking (s : State) (h : Handle) (f : Ticket → Ticket) : (s.updTicket h f).tracking = s.tracking := rfl
@[simp] theorem State.updTicket_aspects (s : State) (h : Handle) (f : Ticket → Ticket) : (s.updTicket h f).aspects = s.aspects := rfl
@[simp] theorem State.updTicket_modes (s : State) (h : Handle) (f : Ticket → Ticket) : (s.updTicket h f).modes = s.modes := rfl
@[simp] theorem State.updTicket_centre (s : State) (h : Handle) (f : Ticket → Ticket) : (s.updTicket h f).centre = s.centre := rfl
@[simp] theorem State.updTicket_pending (s : State) (h : Handle) (f : Ticket → Ticket) : (s.updTicket h f).pending = s.pending := rfl

/-! ## State.addTicket -/

@[simp] theorem State.addTicket_part (s : State) (t : Ticket) : (s.addTicket t).part = s.part := rfl
@[simp] theorem State.addTicket_profile (s : State) (t : Ticket) : (s.addTicket t).profile = s.profile := rfl
@[simp] theorem State.addTicket_links (s : State) (t : Ticket) : (s.addTicket t).links = s.links := rfl
@[simp] theorem State.addTicket_directory (s : State) (t : Ticket) : (s.addTicket t).directory = s.directory := rfl
@[simp] theorem State.addTicket_centreLink (s : State) (t : Ticket) : (s.addTicket t).centreLink = s.centreLink := rfl
@[simp] theorem State.addTicket_lines (s : State) (t : Ticket) : (s.addTicket t).lines = s.lines := rfl
@[simp] theorem State.addTicket_deadlines (s : State) (t : Ticket) : (s.addTicket t).deadlines = s.deadlines := rfl
@[simp] theorem State.addTicket_account (s : State) (t : Ticket) : (s.addTicket t).account = s.account := rfl
@[simp] theorem State.addTicket_admission (s : State) (t : Ticket) : (s.addTicket t).admission = s.admission := rfl
@[simp] theorem State.addTicket_tracking (s : State) (t : Ticket) : (s.addTicket t).tracking = s.tracking := rfl
@[simp] theorem State.addTicket_aspects (s : State) (t : Ticket) : (s.addTicket t).aspects = s.aspects := rfl
@[simp] theorem State.addTicket_modes (s : State) (t : Ticket) : (s.addTicket t).modes = s.modes := rfl
@[simp] theorem State.addTicket_centre (s : State) (t : Ticket) : (s.addTicket t).centre = s.centre := rfl
@[simp] theorem State.addTicket_pending (s : State) (t : Ticket) : (s.addTicket t).pending = s.pending := rfl

/-! ## State.removeTicket -/

@[simp] theorem State.removeTicket_part (s : State) (t : Ticket) : (s.removeTicket t).part = s.part := rfl
@[simp] theorem State.removeTicket_profile (s : State) (t : Ticket) : (s.removeTicket t).profile = s.profile := rfl
@[simp] theorem State.removeTicket_links (s : State) (t : Ticket) : (s.removeTicket t).links = s.links := rfl
@[simp] theorem State.removeTicket_directory (s : State) (t : Ticket) : (s.removeTicket t).directory = s.directory := rfl
@[simp] theorem State.removeTicket_centreLink (s : State) (t : Ticket) : (s.removeTicket t).centreLink = s.centreLink := rfl
@[simp] theorem State.removeTicket_lines (s : State) (t : Ticket) : (s.removeTicket t).lines = s.lines := rfl
@[simp] theorem State.removeTicket_deadlines (s : State) (t : Ticket) : (s.removeTicket t).deadlines = s.deadlines := rfl
@[simp] theorem State.removeTicket_account (s : State) (t : Ticket) : (s.removeTicket t).account = s.account := rfl
@[simp] theorem State.removeTicket_admission (s : State) (t : Ticket) : (s.removeTicket t).admission = s.admission := rfl
@[simp] theorem State.removeTicket_tracking (s : State) (t : Ticket) : (s.removeTicket t).tracking = s.tracking := rfl
@[simp] theorem State.removeTicket_aspects (s : State) (t : Ticket) : (s.removeTicket t).aspects = s.aspects := rfl
@[simp] theorem State.removeTicket_modes (s : State) (t : Ticket) : (s.removeTicket t).modes = s.modes := rfl
@[simp] theorem State.removeTicket_centre (s : State) (t : Ticket) : (s.removeTicket t).centre = s.centre := rfl
@[simp] theorem State.removeTicket_pending (s : State) (t : Ticket) : (s.removeTicket t).pending = s.pending := rfl

/-! ## State.updTable -/

@[simp] theorem State.updTable_part (s : State) (f : Table → Table) : (s.updTable f).part = s.part := rfl
@[simp] theorem State.updTable_profile (s : State) (f : Table → Table) : (s.updTable f).profile = s.profile := rfl
@[simp] theorem State.updTable_links (s : State) (f : Table → Table) : (s.updTable f).links = s.links := rfl
@[simp] theorem State.updTable_directory (s : State) (f : Table → Table) : (s.updTable f).directory = s.directory := rfl
@[simp] theorem State.updTable_centreLink (s : State) (f : Table → Table) : (s.updTable f).centreLink = s.centreLink := rfl
@[simp] theorem State.updTable_lines (s : State) (f : Table → Table) : (s.updTable f).lines = s.lines := rfl
@[simp] theorem State.updTable_deadlines (s : State) (f : Table → Table) : (s.updTable f).deadlines = s.deadlines := rfl
@[simp] theorem State.updTable_account (s : State) (f : Table → Table) : (s.updTable f).account = s.account := rfl
@[simp] theorem State.updTable_admission (s : State) (f : Table → Table) : (s.updTable f).admission = s.admission := rfl
@[simp] theorem State.updTable_tracking (s : State) (f : Table → Table) : (s.updTable f).tracking = s.tracking := rfl
@[simp] theorem State.updTable_aspects (s : State) (f : Table → Table) : (s.updTable f).aspects = s.aspects := rfl
@[simp] theorem State.updTable_modes (s : State) (f : Table → Table) : (s.updTable f).modes = s.modes := rfl
@[simp] theorem State.updTable_centre (s : State) (f : Table → Table) : (s.updTable f).centre = s.centre := rfl
@[simp] theorem State.updTable_pending (s : State) (f : Table → Table) : (s.updTable f).pending = s.pending := rfl

/-! ## State.dropDue -/

@[simp] theorem State.dropDue_part (s : State) (h : Handle) : (s.dropDue h).part = s.part := rfl
@[simp] theorem State.dropDue_profile (s : State) (h : Handle) : (s.dropDue h).profile = s.profile := rfl
@[simp] theorem State.dropDue_links (s : State) (h : Handle) : (s.dropDue h).links = s.links := rfl
@[simp] theorem State.dropDue_directory (s : State) (h : Handle) : (s.dropDue h).directory = s.directory := rfl
@[simp] theorem State.dropDue_centreLink (s : State) (h : Handle) : (s.dropDue h).centreLink = s.centreLink := rfl
@[simp] theorem State.dropDue_lines (s : State) (h : Handle) : (s.dropDue h).lines = s.lines := rfl
@[simp] theorem State.dropDue_table (s : State) (h : Handle) : (s.dropDue h).table = s.table := rfl
@[simp] theorem State.dropDue_account (s : State) (h : Handle) : (s.dropDue h).account = s.account := rfl
@[simp] theorem State.dropDue_admission (s : State) (h : Handle) : (s.dropDue h).admission = s.admission := rfl
@[simp] theorem State.dropDue_tracking (s : State) (h : Handle) : (s.dropDue h).tracking = s.tracking := rfl
@[simp] theorem State.dropDue_aspects (s : State) (h : Handle) : (s.dropDue h).aspects = s.aspects := rfl
@[simp] theorem State.dropDue_modes (s : State) (h : Handle) : (s.dropDue h).modes = s.modes := rfl
@[simp] theorem State.dropDue_centre (s : State) (h : Handle) : (s.dropDue h).centre = s.centre := rfl
@[simp] theorem State.dropDue_pending (s : State) (h : Handle) : (s.dropDue h).pending = s.pending := rfl

/-! ## State.setDue -/

@[simp] theorem State.setDue_part (s : State) (h : Handle) (kind : DueKind) (due : Time) : (s.setDue h kind due).part = s.part := rfl
@[simp] theorem State.setDue_profile (s : State) (h : Handle) (kind : DueKind) (due : Time) : (s.setDue h kind due).profile = s.profile := rfl
@[simp] theorem State.setDue_links (s : State) (h : Handle) (kind : DueKind) (due : Time) : (s.setDue h kind due).links = s.links := rfl
@[simp] theorem State.setDue_directory (s : State) (h : Handle) (kind : DueKind) (due : Time) : (s.setDue h kind due).directory = s.directory := rfl
@[simp] theorem State.setDue_centreLink (s : State) (h : Handle) (kind : DueKind) (due : Time) : (s.setDue h kind due).centreLink = s.centreLink := rfl
@[simp] theorem State.setDue_lines (s : State) (h : Handle) (kind : DueKind) (due : Time) : (s.setDue h kind due).lines = s.lines := rfl
@[simp] theorem State.setDue_table (s : State) (h : Handle) (kind : DueKind) (due : Time) : (s.setDue h kind due).table = s.table := rfl
@[simp] theorem State.setDue_account (s : State) (h : Handle) (kind : DueKind) (due : Time) : (s.setDue h kind due).account = s.account := rfl
@[simp] theorem State.setDue_admission (s : State) (h : Handle) (kind : DueKind) (due : Time) : (s.setDue h kind due).admission = s.admission := rfl
@[simp] theorem State.setDue_tracking (s : State) (h : Handle) (kind : DueKind) (due : Time) : (s.setDue h kind due).tracking = s.tracking := rfl
@[simp] theorem State.setDue_aspects (s : State) (h : Handle) (kind : DueKind) (due : Time) : (s.setDue h kind due).aspects = s.aspects := rfl
@[simp] theorem State.setDue_modes (s : State) (h : Handle) (kind : DueKind) (due : Time) : (s.setDue h kind due).modes = s.modes := rfl
@[simp] theorem State.setDue_centre (s : State) (h : Handle) (kind : DueKind) (due : Time) : (s.setDue h kind due).centre = s.centre := rfl
@[simp] theorem State.setDue_pending (s : State) (h : Handle) (kind : DueKind) (due : Time) : (s.setDue h kind due).pending = s.pending := rfl

/-! ## State.updLink -/

@[simp] theorem State.updLink_part (s : State) (k : LinkNo) (f : LinkRec → LinkRec) : (s.updLink k f).part = s.part := rfl
@[simp] theorem State.updLink_profile (s : State) (k : LinkNo) (f : LinkRec → LinkRec) : (s.updLink k f).profile = s.profile := rfl
@[simp] theorem State.updLink_directory (s : State) (k : LinkNo) (f : LinkRec → LinkRec) : (s.updLink k f).directory = s.directory := rfl
@[simp] theorem State.updLink_centreLink (s : State) (k : LinkNo) (f : LinkRec → LinkRec) : (s.updLink k f).centreLink = s.centreLink := rfl
@[simp] theorem State.updLink_lines (s : State) (k : LinkNo) (f : LinkRec → LinkRec) : (s.updLink k f).lines = s.lines := rfl
@[simp] theorem State.updLink_deadlines (s : State) (k : LinkNo) (f : LinkRec → LinkRec) : (s.updLink k f).deadlines = s.deadlines := rfl
@[simp] theorem State.updLink_table (s : State) (k : LinkNo) (f : LinkRec → LinkRec) : (s.updLink k f).table = s.table := rfl
@[simp] theorem State.updLink_account (s : State) (k : LinkNo) (f : LinkRec → LinkRec) : (s.updLink k f).account = s.account := rfl
@[simp] theorem State.updLink_admission (s : State) (k : LinkNo) (f : LinkRec → LinkRec) : (s.updLink k f).admission = s.admission := rfl
@[simp] theorem State.updLink_tracking (s : State) (k : LinkNo) (f : LinkRec → LinkRec) : (s.updLink k f).tracking = s.tracking := rfl
@[simp] theorem State.updLink_aspects (s : State) (k : LinkNo) (f : LinkRec → LinkRec) : (s.updLink k f).aspects = s.aspects := rfl
@[simp] theorem State.updLink_modes (s : State) (k : LinkNo) (f : LinkRec → LinkRec) : (s.updLink k f).modes = s.modes := rfl
@[simp] theorem State.updLink_centre (s : State) (k : LinkNo) (f : LinkRec → LinkRec) : (s.updLink k f).centre = s.centre := rfl
@[simp] theorem State.updLink_pending (s : State) (k : LinkNo) (f : LinkRec → LinkRec) : (s.updLink k f).pending = s.pending := rfl

/-! ## State.enqueue -/

@[simp] theorem State.enqueue_part (s : State) (k : LinkNo) (f : TxFrame) : (s.enqueue k f).part = s.part := rfl
@[simp] theorem State.enqueue_profile (s : State) (k : LinkNo) (f : TxFrame) : (s.enqueue k f).profile = s.profile := rfl
@[simp] theorem State.enqueue_directory (s : State) (k : LinkNo) (f : TxFrame) : (s.enqueue k f).directory = s.directory := rfl
@[simp] theorem State.enqueue_centreLink (s : State) (k : LinkNo) (f : TxFrame) : (s.enqueue k f).centreLink = s.centreLink := rfl
@[simp] theorem State.enqueue_lines (s : State) (k : LinkNo) (f : TxFrame) : (s.enqueue k f).lines = s.lines := rfl
@[simp] theorem State.enqueue_deadlines (s : State) (k : LinkNo) (f : TxFrame) : (s.enqueue k f).deadlines = s.deadlines := rfl
@[simp] theorem State.enqueue_table (s : State) (k : LinkNo) (f : TxFrame) : (s.enqueue k f).table = s.table := rfl
@[simp] theorem State.enqueue_account (s : State) (k : LinkNo) (f : TxFrame) : (s.enqueue k f).account = s.account := rfl
@[simp] theorem State.enqueue_admission (s : State) (k : LinkNo) (f : TxFrame) : (s.enqueue k f).admission = s.admission := rfl
@[simp] theorem State.enqueue_tracking (s : State) (k : LinkNo) (f : TxFrame) : (s.enqueue k f).tracking = s.tracking := rfl
@[simp] theorem State.enqueue_aspects (s : State) (k : LinkNo) (f : TxFrame) : (s.enqueue k f).aspects = s.aspects := rfl
@[simp] theorem State.enqueue_modes (s : State) (k : LinkNo) (f : TxFrame) : (s.enqueue k f).modes = s.modes := rfl
@[simp] theorem State.enqueue_centre (s : State) (k : LinkNo) (f : TxFrame) : (s.enqueue k f).centre = s.centre := rfl
@[simp] theorem State.enqueue_pending (s : State) (k : LinkNo) (f : TxFrame) : (s.enqueue k f).pending = s.pending := rfl

/-! ## State.setEntry -/

@[simp] theorem State.setEntry_part (s : State) (k : LinkNo) (p : PosNo) (e : Entry) : (s.setEntry k p e).part = s.part := rfl
@[simp] theorem State.setEntry_profile (s : State) (k : LinkNo) (p : PosNo) (e : Entry) : (s.setEntry k p e).profile = s.profile := rfl
@[simp] theorem State.setEntry_links (s : State) (k : LinkNo) (p : PosNo) (e : Entry) : (s.setEntry k p e).links = s.links := rfl
@[simp] theorem State.setEntry_centreLink (s : State) (k : LinkNo) (p : PosNo) (e : Entry) : (s.setEntry k p e).centreLink = s.centreLink := rfl
@[simp] theorem State.setEntry_lines (s : State) (k : LinkNo) (p : PosNo) (e : Entry) : (s.setEntry k p e).lines = s.lines := rfl
@[simp] theorem State.setEntry_deadlines (s : State) (k : LinkNo) (p : PosNo) (e : Entry) : (s.setEntry k p e).deadlines = s.deadlines := rfl
@[simp] theorem State.setEntry_table (s : State) (k : LinkNo) (p : PosNo) (e : Entry) : (s.setEntry k p e).table = s.table := rfl
@[simp] theorem State.setEntry_account (s : State) (k : LinkNo) (p : PosNo) (e : Entry) : (s.setEntry k p e).account = s.account := rfl
@[simp] theorem State.setEntry_admission (s : State) (k : LinkNo) (p : PosNo) (e : Entry) : (s.setEntry k p e).admission = s.admission := rfl
@[simp] theorem State.setEntry_tracking (s : State) (k : LinkNo) (p : PosNo) (e : Entry) : (s.setEntry k p e).tracking = s.tracking := rfl
@[simp] theorem State.setEntry_aspects (s : State) (k : LinkNo) (p : PosNo) (e : Entry) : (s.setEntry k p e).aspects = s.aspects := rfl
@[simp] theorem State.setEntry_modes (s : State) (k : LinkNo) (p : PosNo) (e : Entry) : (s.setEntry k p e).modes = s.modes := rfl
@[simp] theorem State.setEntry_centre (s : State) (k : LinkNo) (p : PosNo) (e : Entry) : (s.setEntry k p e).centre = s.centre := rfl
@[simp] theorem State.setEntry_pending (s : State) (k : LinkNo) (p : PosNo) (e : Entry) : (s.setEntry k p e).pending = s.pending := rfl

/-! ## State.setEvent -/

@[simp] theorem State.setEvent_part (s : State) (e : Event) : (s.setEvent e).part = s.part := rfl
@[simp] theorem State.setEvent_profile (s : State) (e : Event) : (s.setEvent e).profile = s.profile := rfl
@[simp] theorem State.setEvent_links (s : State) (e : Event) : (s.setEvent e).links = s.links := rfl
@[simp] theorem State.setEvent_directory (s : State) (e : Event) : (s.setEvent e).directory = s.directory := rfl
@[simp] theorem State.setEvent_centreLink (s : State) (e : Event) : (s.setEvent e).centreLink = s.centreLink := rfl
@[simp] theorem State.setEvent_lines (s : State) (e : Event) : (s.setEvent e).lines = s.lines := rfl
@[simp] theorem State.setEvent_deadlines (s : State) (e : Event) : (s.setEvent e).deadlines = s.deadlines := rfl
@[simp] theorem State.setEvent_table (s : State) (e : Event) : (s.setEvent e).table = s.table := rfl
@[simp] theorem State.setEvent_account (s : State) (e : Event) : (s.setEvent e).account = s.account := rfl
@[simp] theorem State.setEvent_admission (s : State) (e : Event) : (s.setEvent e).admission = s.admission := rfl
@[simp] theorem State.setEvent_tracking (s : State) (e : Event) : (s.setEvent e).tracking = s.tracking := rfl
@[simp] theorem State.setEvent_aspects (s : State) (e : Event) : (s.setEvent e).aspects = s.aspects := rfl
@[simp] theorem State.setEvent_modes (s : State) (e : Event) : (s.setEvent e).modes = s.modes := rfl
@[simp] theorem State.setEvent_pending (s : State) (e : Event) : (s.setEvent e).pending = s.pending := rfl

/-! ## State.updSpan -/

@[simp] theorem State.updSpan_part (s : State) (i : SpanNo) (f : SpanRec → SpanRec) : (s.updSpan i f).part = s.part := rfl
@[simp] theorem State.updSpan_profile (s : State) (i : SpanNo) (f : SpanRec → SpanRec) : (s.updSpan i f).profile = s.profile := rfl
@[simp] theorem State.updSpan_links (s : State) (i : SpanNo) (f : SpanRec → SpanRec) : (s.updSpan i f).links = s.links := rfl
@[simp] theorem State.updSpan_directory (s : State) (i : SpanNo) (f : SpanRec → SpanRec) : (s.updSpan i f).directory = s.directory := rfl
@[simp] theorem State.updSpan_centreLink (s : State) (i : SpanNo) (f : SpanRec → SpanRec) : (s.updSpan i f).centreLink = s.centreLink := rfl
@[simp] theorem State.updSpan_lines (s : State) (i : SpanNo) (f : SpanRec → SpanRec) : (s.updSpan i f).lines = s.lines := rfl
@[simp] theorem State.updSpan_deadlines (s : State) (i : SpanNo) (f : SpanRec → SpanRec) : (s.updSpan i f).deadlines = s.deadlines := rfl
@[simp] theorem State.updSpan_table (s : State) (i : SpanNo) (f : SpanRec → SpanRec) : (s.updSpan i f).table = s.table := rfl
@[simp] theorem State.updSpan_admission (s : State) (i : SpanNo) (f : SpanRec → SpanRec) : (s.updSpan i f).admission = s.admission := rfl
@[simp] theorem State.updSpan_tracking (s : State) (i : SpanNo) (f : SpanRec → SpanRec) : (s.updSpan i f).tracking = s.tracking := rfl
@[simp] theorem State.updSpan_aspects (s : State) (i : SpanNo) (f : SpanRec → SpanRec) : (s.updSpan i f).aspects = s.aspects := rfl
@[simp] theorem State.updSpan_modes (s : State) (i : SpanNo) (f : SpanRec → SpanRec) : (s.updSpan i f).modes = s.modes := rfl
@[simp] theorem State.updSpan_centre (s : State) (i : SpanNo) (f : SpanRec → SpanRec) : (s.updSpan i f).centre = s.centre := rfl
@[simp] theorem State.updSpan_pending (s : State) (i : SpanNo) (f : SpanRec → SpanRec) : (s.updSpan i f).pending = s.pending := rfl

/-! ## State.settleTargets -/

@[simp] theorem State.settleTargets_part (s : State) (i : SpanNo) : (s.settleTargets i).part = s.part := rfl
@[simp] theorem State.settleTargets_profile (s : State) (i : SpanNo) : (s.settleTargets i).profile = s.profile := rfl
@[simp] theorem State.settleTargets_links (s : State) (i : SpanNo) : (s.settleTargets i).links = s.links := rfl
@[simp] theorem State.settleTargets_directory (s : State) (i : SpanNo) : (s.settleTargets i).directory = s.directory := rfl
@[simp] theorem State.settleTargets_centreLink (s : State) (i : SpanNo) : (s.settleTargets i).centreLink = s.centreLink := rfl
@[simp] theorem State.settleTargets_lines (s : State) (i : SpanNo) : (s.settleTargets i).lines = s.lines := rfl
@[simp] theorem State.settleTargets_deadlines (s : State) (i : SpanNo) : (s.settleTargets i).deadlines = s.deadlines := rfl
@[simp] theorem State.settleTargets_table (s : State) (i : SpanNo) : (s.settleTargets i).table = s.table := rfl
@[simp] theorem State.settleTargets_admission (s : State) (i : SpanNo) : (s.settleTargets i).admission = s.admission := rfl
@[simp] theorem State.settleTargets_tracking (s : State) (i : SpanNo) : (s.settleTargets i).tracking = s.tracking := rfl
@[simp] theorem State.settleTargets_aspects (s : State) (i : SpanNo) : (s.settleTargets i).aspects = s.aspects := rfl
@[simp] theorem State.settleTargets_modes (s : State) (i : SpanNo) : (s.settleTargets i).modes = s.modes := rfl
@[simp] theorem State.settleTargets_centre (s : State) (i : SpanNo) : (s.settleTargets i).centre = s.centre := rfl
@[simp] theorem State.settleTargets_pending (s : State) (i : SpanNo) : (s.settleTargets i).pending = s.pending := rfl

/-! ## State.updMode -/

@[simp] theorem State.updMode_part (s : State) (a : Approach) (f : Mode → Mode) : (s.updMode a f).part = s.part := rfl
@[simp] theorem State.updMode_profile (s : State) (a : Approach) (f : Mode → Mode) : (s.updMode a f).profile = s.profile := rfl
@[simp] theorem State.updMode_links (s : State) (a : Approach) (f : Mode → Mode) : (s.updMode a f).links = s.links := rfl
@[simp] theorem State.updMode_directory (s : State) (a : Approach) (f : Mode → Mode) : (s.updMode a f).directory = s.directory := rfl
@[simp] theorem State.updMode_centreLink (s : State) (a : Approach) (f : Mode → Mode) : (s.updMode a f).centreLink = s.centreLink := rfl
@[simp] theorem State.updMode_lines (s : State) (a : Approach) (f : Mode → Mode) : (s.updMode a f).lines = s.lines := rfl
@[simp] theorem State.updMode_deadlines (s : State) (a : Approach) (f : Mode → Mode) : (s.updMode a f).deadlines = s.deadlines := rfl
@[simp] theorem State.updMode_table (s : State) (a : Approach) (f : Mode → Mode) : (s.updMode a f).table = s.table := rfl
@[simp] theorem State.updMode_account (s : State) (a : Approach) (f : Mode → Mode) : (s.updMode a f).account = s.account := rfl
@[simp] theorem State.updMode_admission (s : State) (a : Approach) (f : Mode → Mode) : (s.updMode a f).admission = s.admission := rfl
@[simp] theorem State.updMode_tracking (s : State) (a : Approach) (f : Mode → Mode) : (s.updMode a f).tracking = s.tracking := rfl
@[simp] theorem State.updMode_aspects (s : State) (a : Approach) (f : Mode → Mode) : (s.updMode a f).aspects = s.aspects := rfl
@[simp] theorem State.updMode_centre (s : State) (a : Approach) (f : Mode → Mode) : (s.updMode a f).centre = s.centre := rfl
@[simp] theorem State.updMode_pending (s : State) (a : Approach) (f : Mode → Mode) : (s.updMode a f).pending = s.pending := rfl

/-! ## State.dropCause -/

@[simp] theorem State.dropCause_part (s : State) (a : Approach) (c : Cause) : (s.dropCause a c).part = s.part := rfl
@[simp] theorem State.dropCause_profile (s : State) (a : Approach) (c : Cause) : (s.dropCause a c).profile = s.profile := rfl
@[simp] theorem State.dropCause_links (s : State) (a : Approach) (c : Cause) : (s.dropCause a c).links = s.links := rfl
@[simp] theorem State.dropCause_directory (s : State) (a : Approach) (c : Cause) : (s.dropCause a c).directory = s.directory := rfl
@[simp] theorem State.dropCause_centreLink (s : State) (a : Approach) (c : Cause) : (s.dropCause a c).centreLink = s.centreLink := rfl
@[simp] theorem State.dropCause_lines (s : State) (a : Approach) (c : Cause) : (s.dropCause a c).lines = s.lines := rfl
@[simp] theorem State.dropCause_deadlines (s : State) (a : Approach) (c : Cause) : (s.dropCause a c).deadlines = s.deadlines := rfl
@[simp] theorem State.dropCause_table (s : State) (a : Approach) (c : Cause) : (s.dropCause a c).table = s.table := rfl
@[simp] theorem State.dropCause_account (s : State) (a : Approach) (c : Cause) : (s.dropCause a c).account = s.account := rfl
@[simp] theorem State.dropCause_admission (s : State) (a : Approach) (c : Cause) : (s.dropCause a c).admission = s.admission := rfl
@[simp] theorem State.dropCause_tracking (s : State) (a : Approach) (c : Cause) : (s.dropCause a c).tracking = s.tracking := rfl
@[simp] theorem State.dropCause_aspects (s : State) (a : Approach) (c : Cause) : (s.dropCause a c).aspects = s.aspects := rfl
@[simp] theorem State.dropCause_centre (s : State) (a : Approach) (c : Cause) : (s.dropCause a c).centre = s.centre := rfl
@[simp] theorem State.dropCause_pending (s : State) (a : Approach) (c : Cause) : (s.dropCause a c).pending = s.pending := rfl

/-! ## State.updPlaces -/

@[simp] theorem State.updPlaces_part (s : State) (a : Approach) (f : Places → Places) : (s.updPlaces a f).part = s.part := rfl
@[simp] theorem State.updPlaces_profile (s : State) (a : Approach) (f : Places → Places) : (s.updPlaces a f).profile = s.profile := rfl
@[simp] theorem State.updPlaces_links (s : State) (a : Approach) (f : Places → Places) : (s.updPlaces a f).links = s.links := rfl
@[simp] theorem State.updPlaces_directory (s : State) (a : Approach) (f : Places → Places) : (s.updPlaces a f).directory = s.directory := rfl
@[simp] theorem State.updPlaces_centreLink (s : State) (a : Approach) (f : Places → Places) : (s.updPlaces a f).centreLink = s.centreLink := rfl
@[simp] theorem State.updPlaces_lines (s : State) (a : Approach) (f : Places → Places) : (s.updPlaces a f).lines = s.lines := rfl
@[simp] theorem State.updPlaces_deadlines (s : State) (a : Approach) (f : Places → Places) : (s.updPlaces a f).deadlines = s.deadlines := rfl
@[simp] theorem State.updPlaces_table (s : State) (a : Approach) (f : Places → Places) : (s.updPlaces a f).table = s.table := rfl
@[simp] theorem State.updPlaces_account (s : State) (a : Approach) (f : Places → Places) : (s.updPlaces a f).account = s.account := rfl
@[simp] theorem State.updPlaces_admission (s : State) (a : Approach) (f : Places → Places) : (s.updPlaces a f).admission = s.admission := rfl
@[simp] theorem State.updPlaces_aspects (s : State) (a : Approach) (f : Places → Places) : (s.updPlaces a f).aspects = s.aspects := rfl
@[simp] theorem State.updPlaces_modes (s : State) (a : Approach) (f : Places → Places) : (s.updPlaces a f).modes = s.modes := rfl
@[simp] theorem State.updPlaces_centre (s : State) (a : Approach) (f : Places → Places) : (s.updPlaces a f).centre = s.centre := rfl
@[simp] theorem State.updPlaces_pending (s : State) (a : Approach) (f : Places → Places) : (s.updPlaces a f).pending = s.pending := rfl

/-! ## State.setLane -/

@[simp] theorem State.setLane_part (s : State) (a : Approach) (l : LaneNo) (r : AspectRec Aspect) : (s.setLane a l r).part = s.part := rfl
@[simp] theorem State.setLane_profile (s : State) (a : Approach) (l : LaneNo) (r : AspectRec Aspect) : (s.setLane a l r).profile = s.profile := rfl
@[simp] theorem State.setLane_links (s : State) (a : Approach) (l : LaneNo) (r : AspectRec Aspect) : (s.setLane a l r).links = s.links := rfl
@[simp] theorem State.setLane_directory (s : State) (a : Approach) (l : LaneNo) (r : AspectRec Aspect) : (s.setLane a l r).directory = s.directory := rfl
@[simp] theorem State.setLane_centreLink (s : State) (a : Approach) (l : LaneNo) (r : AspectRec Aspect) : (s.setLane a l r).centreLink = s.centreLink := rfl
@[simp] theorem State.setLane_lines (s : State) (a : Approach) (l : LaneNo) (r : AspectRec Aspect) : (s.setLane a l r).lines = s.lines := rfl
@[simp] theorem State.setLane_deadlines (s : State) (a : Approach) (l : LaneNo) (r : AspectRec Aspect) : (s.setLane a l r).deadlines = s.deadlines := rfl
@[simp] theorem State.setLane_table (s : State) (a : Approach) (l : LaneNo) (r : AspectRec Aspect) : (s.setLane a l r).table = s.table := rfl
@[simp] theorem State.setLane_account (s : State) (a : Approach) (l : LaneNo) (r : AspectRec Aspect) : (s.setLane a l r).account = s.account := rfl
@[simp] theorem State.setLane_admission (s : State) (a : Approach) (l : LaneNo) (r : AspectRec Aspect) : (s.setLane a l r).admission = s.admission := rfl
@[simp] theorem State.setLane_tracking (s : State) (a : Approach) (l : LaneNo) (r : AspectRec Aspect) : (s.setLane a l r).tracking = s.tracking := rfl
@[simp] theorem State.setLane_modes (s : State) (a : Approach) (l : LaneNo) (r : AspectRec Aspect) : (s.setLane a l r).modes = s.modes := rfl
@[simp] theorem State.setLane_centre (s : State) (a : Approach) (l : LaneNo) (r : AspectRec Aspect) : (s.setLane a l r).centre = s.centre := rfl
@[simp] theorem State.setLane_pending (s : State) (a : Approach) (l : LaneNo) (r : AspectRec Aspect) : (s.setLane a l r).pending = s.pending := rfl

/-! ## State.setBay -/

@[simp] theorem State.setBay_part (s : State) (a : Approach) (r : AspectRec BayAspect) : (s.setBay a r).part = s.part := rfl
@[simp] theorem State.setBay_profile (s : State) (a : Approach) (r : AspectRec BayAspect) : (s.setBay a r).profile = s.profile := rfl
@[simp] theorem State.setBay_links (s : State) (a : Approach) (r : AspectRec BayAspect) : (s.setBay a r).links = s.links := rfl
@[simp] theorem State.setBay_directory (s : State) (a : Approach) (r : AspectRec BayAspect) : (s.setBay a r).directory = s.directory := rfl
@[simp] theorem State.setBay_centreLink (s : State) (a : Approach) (r : AspectRec BayAspect) : (s.setBay a r).centreLink = s.centreLink := rfl
@[simp] theorem State.setBay_lines (s : State) (a : Approach) (r : AspectRec BayAspect) : (s.setBay a r).lines = s.lines := rfl
@[simp] theorem State.setBay_deadlines (s : State) (a : Approach) (r : AspectRec BayAspect) : (s.setBay a r).deadlines = s.deadlines := rfl
@[simp] theorem State.setBay_table (s : State) (a : Approach) (r : AspectRec BayAspect) : (s.setBay a r).table = s.table := rfl
@[simp] theorem State.setBay_account (s : State) (a : Approach) (r : AspectRec BayAspect) : (s.setBay a r).account = s.account := rfl
@[simp] theorem State.setBay_admission (s : State) (a : Approach) (r : AspectRec BayAspect) : (s.setBay a r).admission = s.admission := rfl
@[simp] theorem State.setBay_tracking (s : State) (a : Approach) (r : AspectRec BayAspect) : (s.setBay a r).tracking = s.tracking := rfl
@[simp] theorem State.setBay_modes (s : State) (a : Approach) (r : AspectRec BayAspect) : (s.setBay a r).modes = s.modes := rfl
@[simp] theorem State.setBay_centre (s : State) (a : Approach) (r : AspectRec BayAspect) : (s.setBay a r).centre = s.centre := rfl
@[simp] theorem State.setBay_pending (s : State) (a : Approach) (r : AspectRec BayAspect) : (s.setBay a r).pending = s.pending := rfl

/-! ## State.setSignal -/

@[simp] theorem State.setSignal_part (s : State) (a : Approach) (x : BaySignal) : (s.setSignal a x).part = s.part := rfl
@[simp] theorem State.setSignal_profile (s : State) (a : Approach) (x : BaySignal) : (s.setSignal a x).profile = s.profile := rfl
@[simp] theorem State.setSignal_links (s : State) (a : Approach) (x : BaySignal) : (s.setSignal a x).links = s.links := rfl
@[simp] theorem State.setSignal_directory (s : State) (a : Approach) (x : BaySignal) : (s.setSignal a x).directory = s.directory := rfl
@[simp] theorem State.setSignal_centreLink (s : State) (a : Approach) (x : BaySignal) : (s.setSignal a x).centreLink = s.centreLink := rfl
@[simp] theorem State.setSignal_lines (s : State) (a : Approach) (x : BaySignal) : (s.setSignal a x).lines = s.lines := rfl
@[simp] theorem State.setSignal_deadlines (s : State) (a : Approach) (x : BaySignal) : (s.setSignal a x).deadlines = s.deadlines := rfl
@[simp] theorem State.setSignal_table (s : State) (a : Approach) (x : BaySignal) : (s.setSignal a x).table = s.table := rfl
@[simp] theorem State.setSignal_account (s : State) (a : Approach) (x : BaySignal) : (s.setSignal a x).account = s.account := rfl
@[simp] theorem State.setSignal_tracking (s : State) (a : Approach) (x : BaySignal) : (s.setSignal a x).tracking = s.tracking := rfl
@[simp] theorem State.setSignal_aspects (s : State) (a : Approach) (x : BaySignal) : (s.setSignal a x).aspects = s.aspects := rfl
@[simp] theorem State.setSignal_modes (s : State) (a : Approach) (x : BaySignal) : (s.setSignal a x).modes = s.modes := rfl
@[simp] theorem State.setSignal_centre (s : State) (a : Approach) (x : BaySignal) : (s.setSignal a x).centre = s.centre := rfl
@[simp] theorem State.setSignal_pending (s : State) (a : Approach) (x : BaySignal) : (s.setSignal a x).pending = s.pending := rfl

/-! ## State.setSkip -/

@[simp] theorem State.setSkip_part (s : State) (a : Approach) (n : Nat) : (s.setSkip a n).part = s.part := rfl
@[simp] theorem State.setSkip_profile (s : State) (a : Approach) (n : Nat) : (s.setSkip a n).profile = s.profile := rfl
@[simp] theorem State.setSkip_links (s : State) (a : Approach) (n : Nat) : (s.setSkip a n).links = s.links := rfl
@[simp] theorem State.setSkip_directory (s : State) (a : Approach) (n : Nat) : (s.setSkip a n).directory = s.directory := rfl
@[simp] theorem State.setSkip_centreLink (s : State) (a : Approach) (n : Nat) : (s.setSkip a n).centreLink = s.centreLink := rfl
@[simp] theorem State.setSkip_lines (s : State) (a : Approach) (n : Nat) : (s.setSkip a n).lines = s.lines := rfl
@[simp] theorem State.setSkip_deadlines (s : State) (a : Approach) (n : Nat) : (s.setSkip a n).deadlines = s.deadlines := rfl
@[simp] theorem State.setSkip_table (s : State) (a : Approach) (n : Nat) : (s.setSkip a n).table = s.table := rfl
@[simp] theorem State.setSkip_account (s : State) (a : Approach) (n : Nat) : (s.setSkip a n).account = s.account := rfl
@[simp] theorem State.setSkip_tracking (s : State) (a : Approach) (n : Nat) : (s.setSkip a n).tracking = s.tracking := rfl
@[simp] theorem State.setSkip_aspects (s : State) (a : Approach) (n : Nat) : (s.setSkip a n).aspects = s.aspects := rfl
@[simp] theorem State.setSkip_modes (s : State) (a : Approach) (n : Nat) : (s.setSkip a n).modes = s.modes := rfl
@[simp] theorem State.setSkip_centre (s : State) (a : Approach) (n : Nat) : (s.setSkip a n).centre = s.centre := rfl
@[simp] theorem State.setSkip_pending (s : State) (a : Approach) (n : Nat) : (s.setSkip a n).pending = s.pending := rfl

/-! ## State.setTurn -/

@[simp] theorem State.setTurn_part (s : State) (a : Approach) : (s.setTurn a).part = s.part := rfl
@[simp] theorem State.setTurn_profile (s : State) (a : Approach) : (s.setTurn a).profile = s.profile := rfl
@[simp] theorem State.setTurn_links (s : State) (a : Approach) : (s.setTurn a).links = s.links := rfl
@[simp] theorem State.setTurn_directory (s : State) (a : Approach) : (s.setTurn a).directory = s.directory := rfl
@[simp] theorem State.setTurn_centreLink (s : State) (a : Approach) : (s.setTurn a).centreLink = s.centreLink := rfl
@[simp] theorem State.setTurn_lines (s : State) (a : Approach) : (s.setTurn a).lines = s.lines := rfl
@[simp] theorem State.setTurn_deadlines (s : State) (a : Approach) : (s.setTurn a).deadlines = s.deadlines := rfl
@[simp] theorem State.setTurn_table (s : State) (a : Approach) : (s.setTurn a).table = s.table := rfl
@[simp] theorem State.setTurn_account (s : State) (a : Approach) : (s.setTurn a).account = s.account := rfl
@[simp] theorem State.setTurn_tracking (s : State) (a : Approach) : (s.setTurn a).tracking = s.tracking := rfl
@[simp] theorem State.setTurn_aspects (s : State) (a : Approach) : (s.setTurn a).aspects = s.aspects := rfl
@[simp] theorem State.setTurn_modes (s : State) (a : Approach) : (s.setTurn a).modes = s.modes := rfl
@[simp] theorem State.setTurn_centre (s : State) (a : Approach) : (s.setTurn a).centre = s.centre := rfl
@[simp] theorem State.setTurn_pending (s : State) (a : Approach) : (s.setTurn a).pending = s.pending := rfl

/-! ## State.updLine -/

@[simp] theorem State.updLine_part (s : State) (d : LineNo) (f : LineRec → LineRec) : (s.updLine d f).part = s.part := rfl
@[simp] theorem State.updLine_profile (s : State) (d : LineNo) (f : LineRec → LineRec) : (s.updLine d f).profile = s.profile := rfl
@[simp] theorem State.updLine_links (s : State) (d : LineNo) (f : LineRec → LineRec) : (s.updLine d f).links = s.links := rfl
@[simp] theorem State.updLine_directory (s : State) (d : LineNo) (f : LineRec → LineRec) : (s.updLine d f).directory = s.directory := rfl
@[simp] theorem State.updLine_centreLink (s : State) (d : LineNo) (f : LineRec → LineRec) : (s.updLine d f).centreLink = s.centreLink := rfl
@[simp] theorem State.updLine_deadlines (s : State) (d : LineNo) (f : LineRec → LineRec) : (s.updLine d f).deadlines = s.deadlines := rfl
@[simp] theorem State.updLine_table (s : State) (d : LineNo) (f : LineRec → LineRec) : (s.updLine d f).table = s.table := rfl
@[simp] theorem State.updLine_account (s : State) (d : LineNo) (f : LineRec → LineRec) : (s.updLine d f).account = s.account := rfl
@[simp] theorem State.updLine_admission (s : State) (d : LineNo) (f : LineRec → LineRec) : (s.updLine d f).admission = s.admission := rfl
@[simp] theorem State.updLine_tracking (s : State) (d : LineNo) (f : LineRec → LineRec) : (s.updLine d f).tracking = s.tracking := rfl
@[simp] theorem State.updLine_aspects (s : State) (d : LineNo) (f : LineRec → LineRec) : (s.updLine d f).aspects = s.aspects := rfl
@[simp] theorem State.updLine_modes (s : State) (d : LineNo) (f : LineRec → LineRec) : (s.updLine d f).modes = s.modes := rfl
@[simp] theorem State.updLine_centre (s : State) (d : LineNo) (f : LineRec → LineRec) : (s.updLine d f).centre = s.centre := rfl
@[simp] theorem State.updLine_pending (s : State) (d : LineNo) (f : LineRec → LineRec) : (s.updLine d f).pending = s.pending := rfl

/-! ## State.updProfile -/

@[simp] theorem State.updProfile_part (s : State) (f : Profile → Profile) : (s.updProfile f).part = s.part := rfl
@[simp] theorem State.updProfile_links (s : State) (f : Profile → Profile) : (s.updProfile f).links = s.links := rfl
@[simp] theorem State.updProfile_directory (s : State) (f : Profile → Profile) : (s.updProfile f).directory = s.directory := rfl
@[simp] theorem State.updProfile_centreLink (s : State) (f : Profile → Profile) : (s.updProfile f).centreLink = s.centreLink := rfl
@[simp] theorem State.updProfile_lines (s : State) (f : Profile → Profile) : (s.updProfile f).lines = s.lines := rfl
@[simp] theorem State.updProfile_deadlines (s : State) (f : Profile → Profile) : (s.updProfile f).deadlines = s.deadlines := rfl
@[simp] theorem State.updProfile_table (s : State) (f : Profile → Profile) : (s.updProfile f).table = s.table := rfl
@[simp] theorem State.updProfile_account (s : State) (f : Profile → Profile) : (s.updProfile f).account = s.account := rfl
@[simp] theorem State.updProfile_admission (s : State) (f : Profile → Profile) : (s.updProfile f).admission = s.admission := rfl
@[simp] theorem State.updProfile_tracking (s : State) (f : Profile → Profile) : (s.updProfile f).tracking = s.tracking := rfl
@[simp] theorem State.updProfile_aspects (s : State) (f : Profile → Profile) : (s.updProfile f).aspects = s.aspects := rfl
@[simp] theorem State.updProfile_modes (s : State) (f : Profile → Profile) : (s.updProfile f).modes = s.modes := rfl
@[simp] theorem State.updProfile_centre (s : State) (f : Profile → Profile) : (s.updProfile f).centre = s.centre := rfl
@[simp] theorem State.updProfile_pending (s : State) (f : Profile → Profile) : (s.updProfile f).pending = s.pending := rfl

end Sys2Proof.Machine
end

