-- ==== Sys2Proof/Laws/Ops.lean ====
section
/-! SUPPORT. What the shared operations can do: raising an event, offering a frame, placing and releasing. -/

namespace Sys2Proof.Machine

/-- R160, R161: raising an event sets its flag; it may also queue one ALERT on the centre's link, where there is
room, or set the LINK_ERROR flag. -/
theorem State.raise_cases (s : State) (e : Event) (a : Option Approach) (i : Option SpanNo) (h : Handle) :
    s.raise e a i h = s.setEvent e
      ∨ (s.hasRoom s.centreLink = true
          ∧ s.raise e a i h = (s.setEvent e).enqueue s.centreLink (alertFrame e a i h s.now))
      ∨ s.raise e a i h = (s.setEvent e).setEvent .linkError := by
  unfold State.raise
  have hl : (s.setEvent e).hasRoom (s.setEvent e).centreLink = s.hasRoom s.centreLink := rfl
  simp only [hl]
  split
  · exact .inl rfl
  · split
    · next hr => exact .inr (.inl ⟨hr, rfl⟩)
    · exact .inr (.inr rfl)

@[simp] theorem State.raise_part (s : State) (e : Event) (a : Option Approach) (i : Option SpanNo) (h : Handle) : (s.raise e a i h).part = s.part := by
  unfold State.raise; dsimp only; repeat' split
  all_goals rfl
@[simp] theorem State.raise_profile (s : State) (e : Event) (a : Option Approach) (i : Option SpanNo) (h : Handle) : (s.raise e a i h).profile = s.profile := by
  unfold State.raise; dsimp only; repeat' split
  all_goals rfl
@[simp] theorem State.raise_directory (s : State) (e : Event) (a : Option Approach) (i : Option SpanNo) (h : Handle) : (s.raise e a i h).directory = s.directory := by
  unfold State.raise; dsimp only; repeat' split
  all_goals rfl
@[simp] theorem State.raise_centreLink (s : State) (e : Event) (a : Option Approach) (i : Option SpanNo) (h : Handle) : (s.raise e a i h).centreLink = s.centreLink := by
  unfold State.raise; dsimp only; repeat' split
  all_goals rfl
@[simp] theorem State.raise_lines (s : State) (e : Event) (a : Option Approach) (i : Option SpanNo) (h : Handle) : (s.raise e a i h).lines = s.lines := by
  unfold State.raise; dsimp only; repeat' split
  all_goals rfl
@[simp] theorem State.raise_deadlines (s : State) (e : Event) (a : Option Approach) (i : Option SpanNo) (h : Handle) : (s.raise e a i h).deadlines = s.deadlines := by
  unfold State.raise; dsimp only; repeat' split
  all_goals rfl
@[simp] theorem State.raise_table (s : State) (e : Event) (a : Option Approach) (i : Option SpanNo) (h : Handle) : (s.raise e a i h).table = s.table := by
  unfold State.raise; dsimp only; repeat' split
  all_goals rfl
@[simp] theorem State.raise_account (s : State) (e : Event) (a : Option Approach) (i : Option SpanNo) (h : Handle) : (s.raise e a i h).account = s.account := by
  unfold State.raise; dsimp only; repeat' split
  all_goals rfl
@[simp] theorem State.raise_admission (s : State) (e : Event) (a : Option Approach) (i : Option SpanNo) (h : Handle) : (s.raise e a i h).admission = s.admission := by
  unfold State.raise; dsimp only; repeat' split
  all_goals rfl
@[simp] theorem State.raise_tracking (s : State) (e : Event) (a : Option Approach) (i : Option SpanNo) (h : Handle) : (s.raise e a i h).tracking = s.tracking := by
  unfold State.raise; dsimp only; repeat' split
  all_goals rfl
@[simp] theorem State.raise_aspects (s : State) (e : Event) (a : Option Approach) (i : Option SpanNo) (h : Handle) : (s.raise e a i h).aspects = s.aspects := by
  unfold State.raise; dsimp only; repeat' split
  all_goals rfl
@[simp] theorem State.raise_modes (s : State) (e : Event) (a : Option Approach) (i : Option SpanNo) (h : Handle) : (s.raise e a i h).modes = s.modes := by
  unfold State.raise; dsimp only; repeat' split
  all_goals rfl
@[simp] theorem State.raise_pending (s : State) (e : Event) (a : Option Approach) (i : Option SpanNo) (h : Handle) : (s.raise e a i h).pending = s.pending := by
  unfold State.raise; dsimp only; repeat' split
  all_goals rfl

/-- Raising an event leaves the alert mask and the report due alone. -/
theorem State.raise_centre (s : State) (e : Event) (a : Option Approach) (i : Option SpanNo) (h : Handle) :
    (s.raise e a i h).centre = { s.centre with summary := (s.raise e a i h).centre.summary } := by
  rcases s.raise_cases e a i h with h1 | ⟨-, h1⟩ | h1 <;> rw [h1] <;> rfl

/-- R143: an offered frame joins the queue where there is room; otherwise LINK_ERROR is raised. -/
theorem State.offer_cases (s : State) (k : LinkNo) (f : TxFrame) :
    (s.hasRoom k = true ∧ s.offer k f = s.enqueue k f)
      ∨ (s.hasRoom k = false ∧ s.offer k f = s.raise .linkError none none 0) := by
  unfold State.offer
  split
  · next h => exact .inl ⟨h, rfl⟩
  · next h => exact .inr ⟨by simpa using h, rfl⟩

@[simp] theorem State.offer_part (s : State) (k : LinkNo) (f : TxFrame) : (s.offer k f).part = s.part := by
  unfold State.offer; split <;> simp
@[simp] theorem State.offer_profile (s : State) (k : LinkNo) (f : TxFrame) : (s.offer k f).profile = s.profile := by
  unfold State.offer; split <;> simp
@[simp] theorem State.offer_directory (s : State) (k : LinkNo) (f : TxFrame) : (s.offer k f).directory = s.directory := by
  unfold State.offer; split <;> simp
@[simp] theorem State.offer_centreLink (s : State) (k : LinkNo) (f : TxFrame) : (s.offer k f).centreLink = s.centreLink := by
  unfold State.offer; split <;> simp
@[simp] theorem State.offer_lines (s : State) (k : LinkNo) (f : TxFrame) : (s.offer k f).lines = s.lines := by
  unfold State.offer; split <;> simp
@[simp] theorem State.offer_deadlines (s : State) (k : LinkNo) (f : TxFrame) : (s.offer k f).deadlines = s.deadlines := by
  unfold State.offer; split <;> simp
@[simp] theorem State.offer_table (s : State) (k : LinkNo) (f : TxFrame) : (s.offer k f).table = s.table := by
  unfold State.offer; split <;> simp
@[simp] theorem State.offer_account (s : State) (k : LinkNo) (f : TxFrame) : (s.offer k f).account = s.account := by
  unfold State.offer; split <;> simp
@[simp] theorem State.offer_admission (s : State) (k : LinkNo) (f : TxFrame) : (s.offer k f).admission = s.admission := by
  unfold State.offer; split <;> simp
@[simp] theorem State.offer_tracking (s : State) (k : LinkNo) (f : TxFrame) : (s.offer k f).tracking = s.tracking := by
  unfold State.offer; split <;> simp
@[simp] theorem State.offer_aspects (s : State) (k : LinkNo) (f : TxFrame) : (s.offer k f).aspects = s.aspects := by
  unfold State.offer; split <;> simp
@[simp] theorem State.offer_modes (s : State) (k : LinkNo) (f : TxFrame) : (s.offer k f).modes = s.modes := by
  unfold State.offer; split <;> simp
@[simp] theorem State.offer_pending (s : State) (k : LinkNo) (f : TxFrame) : (s.offer k f).pending = s.pending := by
  unfold State.offer; split <;> simp

/-- Offering a frame leaves the alert mask and the report due alone. -/
theorem State.offer_centre (s : State) (k : LinkNo) (f : TxFrame) :
    (s.offer k f).centre = { s.centre with summary := (s.offer k f).centre.summary } := by
  rcases s.offer_cases k f with ⟨-, h1⟩ | ⟨-, h1⟩ <;> rw [h1]
  · rfl
  · exact s.raise_centre ..

/-- An answer on a link with room joins its queue. -/
theorem State.answer_of_room (s : State) (k : LinkNo) (f : Frame) (p : List Byte) (h : s.hasRoom k = true) :
    s.answer k f p = s.enqueue k (txFrame f.hop .answer f.tag p) := by
  unfold State.answer State.offer; rw [if_pos h]

@[simp] theorem State.answer_part (s : State) (k : LinkNo) (f : Frame) (p : List Byte) : (s.answer k f p).part = s.part := by
  unfold State.answer; simp
@[simp] theorem State.answer_profile (s : State) (k : LinkNo) (f : Frame) (p : List Byte) : (s.answer k f p).profile = s.profile := by
  unfold State.answer; simp
@[simp] theorem State.answer_directory (s : State) (k : LinkNo) (f : Frame) (p : List Byte) : (s.answer k f p).directory = s.directory := by
  unfold State.answer; simp
@[simp] theorem State.answer_centreLink (s : State) (k : LinkNo) (f : Frame) (p : List Byte) : (s.answer k f p).centreLink = s.centreLink := by
  unfold State.answer; simp
@[simp] theorem State.answer_lines (s : State) (k : LinkNo) (f : Frame) (p : List Byte) : (s.answer k f p).lines = s.lines := by
  unfold State.answer; simp
@[simp] theorem State.answer_deadlines (s : State) (k : LinkNo) (f : Frame) (p : List Byte) : (s.answer k f p).deadlines = s.deadlines := by
  unfold State.answer; simp
@[simp] theorem State.answer_table (s : State) (k : LinkNo) (f : Frame) (p : List Byte) : (s.answer k f p).table = s.table := by
  unfold State.answer; simp
@[simp] theorem State.answer_account (s : State) (k : LinkNo) (f : Frame) (p : List Byte) : (s.answer k f p).account = s.account := by
  unfold State.answer; simp
@[simp] theorem State.answer_admission (s : State) (k : LinkNo) (f : Frame) (p : List Byte) : (s.answer k f p).admission = s.admission := by
  unfold State.answer; simp
@[simp] theorem State.answer_tracking (s : State) (k : LinkNo) (f : Frame) (p : List Byte) : (s.answer k f p).tracking = s.tracking := by
  unfold State.answer; simp
@[simp] theorem State.answer_aspects (s : State) (k : LinkNo) (f : Frame) (p : List Byte) : (s.answer k f p).aspects = s.aspects := by
  unfold State.answer; simp
@[simp] theorem State.answer_modes (s : State) (k : LinkNo) (f : Frame) (p : List Byte) : (s.answer k f p).modes = s.modes := by
  unfold State.answer; simp
@[simp] theorem State.answer_pending (s : State) (k : LinkNo) (f : Frame) (p : List Byte) : (s.answer k f p).pending = s.pending := by
  unfold State.answer; simp

@[simp] theorem State.notify_part (s : State) (x : TxKind) (p : List Byte) : (s.notify x p).part = s.part := by
  unfold State.notify; split <;> simp
@[simp] theorem State.notify_profile (s : State) (x : TxKind) (p : List Byte) : (s.notify x p).profile = s.profile := by
  unfold State.notify; split <;> simp
@[simp] theorem State.notify_directory (s : State) (x : TxKind) (p : List Byte) : (s.notify x p).directory = s.directory := by
  unfold State.notify; split <;> simp
@[simp] theorem State.notify_centreLink (s : State) (x : TxKind) (p : List Byte) : (s.notify x p).centreLink = s.centreLink := by
  unfold State.notify; split <;> simp
@[simp] theorem State.notify_lines (s : State) (x : TxKind) (p : List Byte) : (s.notify x p).lines = s.lines := by
  unfold State.notify; split <;> simp
@[simp] theorem State.notify_deadlines (s : State) (x : TxKind) (p : List Byte) : (s.notify x p).deadlines = s.deadlines := by
  unfold State.notify; split <;> simp
@[simp] theorem State.notify_table (s : State) (x : TxKind) (p : List Byte) : (s.notify x p).table = s.table := by
  unfold State.notify; split <;> simp
@[simp] theorem State.notify_account (s : State) (x : TxKind) (p : List Byte) : (s.notify x p).account = s.account := by
  unfold State.notify; split <;> simp
@[simp] theorem State.notify_admission (s : State) (x : TxKind) (p : List Byte) : (s.notify x p).admission = s.admission := by
  unfold State.notify; split <;> simp
@[simp] theorem State.notify_tracking (s : State) (x : TxKind) (p : List Byte) : (s.notify x p).tracking = s.tracking := by
  unfold State.notify; split <;> simp
@[simp] theorem State.notify_aspects (s : State) (x : TxKind) (p : List Byte) : (s.notify x p).aspects = s.aspects := by
  unfold State.notify; split <;> simp
@[simp] theorem State.notify_modes (s : State) (x : TxKind) (p : List Byte) : (s.notify x p).modes = s.modes := by
  unfold State.notify; split <;> simp
@[simp] theorem State.notify_pending (s : State) (x : TxKind) (p : List Byte) : (s.notify x p).pending = s.pending := by
  unfold State.notify; split <;> simp

/-- R54: a delivered due stood at the head of the list, is of the row's kind and has come. -/
theorem State.takeDue_some {s t : State} {kind : DueKind} {d : Deadline} (h : s.takeDue kind = some (d, t)) :
    ∃ ds, s.deadlines = d :: ds ∧ d.kind = kind ∧ hasCome s.now d.due = true ∧ t = { s with deadlines := ds } := by
  unfold State.takeDue at h
  split at h
  · simp at h
  · next e es he =>
    split at h
    · next hc =>
      simp only [Option.some.injEq, Prod.mk.injEq] at h
      obtain ⟨rfl, rfl⟩ := h
      exact ⟨es, he, hc.1, hc.2, rfl⟩
    · simp at h

end Sys2Proof.Machine
end

