-- ==== Sys2Proof/Laws/Effects.lean ====
section
/-! SUPPORT. Transitions and their reports: what holds after a report has been taken, and after all have. -/

namespace Sys2Proof.Machine

@[simp] theorem Eff.of_st (s : State) : (Eff.of s).st = s := rfl
@[simp] theorem Eff.of_out (s : State) : (Eff.of s).out = [] := rfl
@[simp] theorem Eff.bind_st (e : Eff) (f : State → Eff) : (e.bind f).st = (f e.st).st := rfl
@[simp] theorem Eff.bind_out (e : Eff) (f : State → Eff) : (e.bind f).out = e.out ++ (f e.st).out := rfl
@[simp] theorem Eff.map_st (e : Eff) (f : State → State) : (e.map f).st = f e.st := rfl
@[simp] theorem Eff.map_out (e : Eff) (f : State → State) : (e.map f).out = e.out := rfl
@[simp] theorem Eff.emit_st (e : Eff) (gs : List Signal) : (e.emit gs).st = e.st := rfl
@[simp] theorem Eff.emit_out (e : Eff) (gs : List Signal) : (e.emit gs).out = e.out ++ gs := rfl

theorem cascadeDepth_succ : Config.cascadeDepth = 1023 + 1 := by decide

/-- Without reports nothing follows. -/
@[simp] theorem settle_nil (s : State) : settle { st := s, out := [] } = s := rfl

/-- A transition that makes no report is settled. -/
@[simp] theorem settle_of (s : State) : settle (Eff.of s) = s := rfl

/-- A report is taken, and then those that follow from it. -/
theorem handle_succ (n : Nat) {g : Signal} (s : State) (h : g.attempts = none) :
    handle (n + 1) g s = Eff.each (act g s).out (handle n) (act g s).st := by
  unfold handle
  exact if_pos h

/-- R111: an order attempt is left to be made. -/
theorem handle_attempt (n : Nat) {g : Signal} (s : State) (h : g.attempts ≠ none) :
    handle (n + 1) g s = { st := s, out := [g] } := by
  unfold handle
  exact if_neg h

/-- A report from which none follows. -/
theorem handle_quiet {g : Signal} {s : State} (n : Nat) (h : (act g s).out = []) (k : g.attempts = none) :
    handle (n + 1) g s = Eff.of (act g s).st := by
  rw [handle_succ n s k, h]
  rfl

/-- What settling does once the reports have been taken: nothing where they left no order attempt. -/
theorem settle_of_relay {e : Eff} (h : (relay e).out = []) : settle e = (relay e).st := by
  show settleWithin (1023 + 1) e = _
  unfold settleWithin
  exact if_pos h

/-- One transition for each of a list, the first apart. -/
theorem Eff.foldl_st {α : Type} (xs : List α) (f : α → State → Eff) (e : Eff) (P : State → Prop)
    (step : ∀ x ∈ xs, ∀ s, P s → P (f x s).st) (h : P e.st) :
    P (xs.foldl (fun e x => e.bind (f x)) e).st := by
  induction xs generalizing e with
  | nil => exact h
  | cons x xs ih =>
    exact ih (e.bind (f x)) (fun y hy => step y (List.mem_cons_of_mem _ hy))
      (step x List.mem_cons_self e.st h)

/-- One transition for each of a list, started from one that has been made. -/
theorem Eff.foldl_bind {α : Type} (xs : List α) (f : α → State → Eff) (e : Eff) :
    xs.foldl (fun e x => e.bind (f x)) e = e.bind (Eff.each xs f) := by
  induction xs generalizing e with
  | nil => simp [Eff.each, Eff.bind, Eff.of]
  | cons x xs ih =>
    have split : Eff.each (x :: xs) f e.st = ((Eff.of e.st).bind (f x)).bind (Eff.each xs f) := ih _
    rw [List.foldl_cons, ih]
    simp only [Eff.bind, Eff.of, List.nil_append] at split ⊢
    rw [split, List.append_assoc]

/-- The first of a list of transitions, and then the others. -/
theorem Eff.each_cons {α : Type} (x : α) (xs : List α) (f : α → State → Eff) (s : State) :
    Eff.each (x :: xs) f s = (f x s).bind (Eff.each xs f) :=
  (Eff.foldl_bind xs f ((Eff.of s).bind (f x))).trans (by simp [Eff.bind, Eff.of])

/-- What each of a list of transitions keeps, all of them keep. -/
theorem Eff.each_st {α : Type} {xs : List α} {f : α → State → Eff} {s : State} (P : State → Prop)
    (step : ∀ x ∈ xs, ∀ s, P s → P (f x s).st) (h : P s) : P (Eff.each xs f s).st :=
  Eff.foldl_st xs f (Eff.of s) P step h

/-- Every report of a list of transitions is one that some of them makes. -/
theorem Eff.foldl_out {α : Type} (xs : List α) (f : α → State → Eff) (e : Eff) (Q : Signal → Prop)
    (step : ∀ x ∈ xs, ∀ s, ∀ g ∈ (f x s).out, Q g) (h : ∀ g ∈ e.out, Q g) :
    ∀ g ∈ (xs.foldl (fun e x => e.bind (f x)) e).out, Q g := by
  induction xs generalizing e with
  | nil => exact h
  | cons x xs ih =>
    refine ih (e.bind (f x)) (fun y hy => step y (List.mem_cons_of_mem _ hy)) ?_
    intro g hg
    rw [Eff.bind_out, List.mem_append] at hg
    exact hg.elim (h g) (step x List.mem_cons_self e.st g)

/-- What holds of every report of each of a list of transitions holds of all their reports. -/
theorem Eff.each_out {α : Type} {xs : List α} {f : α → State → Eff} {s : State} (Q : Signal → Prop)
    (step : ∀ x ∈ xs, ∀ s, ∀ g ∈ (f x s).out, Q g) : ∀ g ∈ (Eff.each xs f s).out, Q g :=
  Eff.foldl_out xs f (Eff.of s) Q step (by simp)

/-- What each of a list of transitions keeps of the state and gives of its reports, all of them keep and give. -/
theorem Eff.each_both {α : Type} (P : State → Prop) (Q : Signal → Prop) {xs : List α} {f : α → State → Eff} {s : State}
    (step : ∀ x ∈ xs, ∀ s, P s → P (f x s).st ∧ ∀ g ∈ (f x s).out, Q g) (h : P s) :
    P (Eff.each xs f s).st ∧ ∀ g ∈ (Eff.each xs f s).out, Q g := by
  induction xs generalizing s with
  | nil => exact ⟨h, fun _ h => nomatch h⟩
  | cons x xs ih =>
    have first := step x List.mem_cons_self s h
    have rest := ih (s := (f x s).st) (fun y hy => step y (List.mem_cons_of_mem _ hy)) first.1
    rw [Eff.each_cons]
    exact ⟨rest.1, fun g hg => (List.mem_append.1 hg).elim (first.2 g) (rest.2 g)⟩

/-- R111: putting order attempts in their order adds none. -/
theorem mem_inAttemptOrder {gs : List Signal} {g : Signal} (h : g ∈ inAttemptOrder gs) : g ∈ gs := by
  simp only [inAttemptOrder, List.mem_flatMap] at h
  obtain ⟨_, _, _, _, h⟩ := h
  exact (List.mem_filter.1 h).1

/-- A property that every report of a class keeps, where what follows from a report of the class is of the class, is
kept by taking such a report with all that follows; and what is left to be made is of the class. -/
theorem handle_induct (P : State → Prop) (Q : Signal → Prop)
    (keep : ∀ g s, Q g → P s → P (act g s).st) (closed : ∀ g s, Q g → ∀ g' ∈ (act g s).out, Q g') (n : Nat)
    (g : Signal) (s : State) (hg : Q g) (hs : P s) : P (handle n g s).st ∧ ∀ g' ∈ (handle n g s).out, Q g' := by
  induction n generalizing g s with
  | zero => exact ⟨hs, fun _ h => nomatch h⟩
  | succ n ih =>
    by_cases hk : g.attempts = none
    · rw [handle_succ n s hk]
      exact Eff.each_both P Q (fun g' hg' s' hs' => ih g' s' (closed g s hg g' hg') hs') (keep g s hg hs)
    · rw [handle_attempt n s hk]
      exact ⟨hs, fun g' h => List.mem_singleton.1 h ▸ hg⟩

/-- The same for all the reports of a transition. -/
theorem settle_induct {e : Eff} (P : State → Prop) (Q : Signal → Prop)
    (keep : ∀ g s, Q g → P s → P (act g s).st) (closed : ∀ g s, Q g → ∀ g' ∈ (act g s).out, Q g')
    (out : ∀ g ∈ e.out, Q g) (hs : P e.st) : P (settle e) := by
  have rounds : ∀ n (e : Eff), (∀ g ∈ e.out, Q g) → P e.st → P (settleWithin n e) := by
    intro n
    induction n with
    | zero => exact fun _ _ hs => hs
    | succ n ih =>
      intro e out hs
      have left : P (relay e).st ∧ ∀ g ∈ (relay e).out, Q g :=
        Eff.each_both P Q (fun g hg s hs => handle_induct P Q keep closed _ g s (out g hg) hs) hs
      unfold settleWithin
      dsimp only
      split
      · exact left.1
      · have made := Eff.each_both P Q (xs := inAttemptOrder (relay e).out) (f := act)
          (fun g hg s hs => ⟨keep g s (left.2 g (mem_inAttemptOrder hg)) hs, closed g s (left.2 g (mem_inAttemptOrder hg))⟩)
          left.1
        exact ih _ made.2 made.1
  exact rounds _ e out hs

/-- A property that every report keeps is kept by settling. -/
theorem settle_keeps {e : Eff} (P : State → Prop) (keep : ∀ g s, P s → P (act g s).st) (hs : P e.st) :
    P (settle e) :=
  settle_induct P (fun _ => True) (fun g s _ => keep g s) (fun _ _ _ _ _ => trivial) (fun _ _ => trivial) hs

end Sys2Proof.Machine
end

