-- ==== Sys2Proof/Laws/Arbiter.lean ====
section
/-! SUPPORT. The release arbiter (R63 to R66): everything a pass can grant, and what a run keeps. -/

namespace Sys2Proof.Machine

/-- What a pass that grants has granted: the escort in the slot, or a head that an approach offers and that fits. -/
theorem arbiterPass_grants {s : State} {g : Grant} (h : arbiterPass s = some g) :
    (∃ e t, s.admission.escortSlot = some e ∧ s.ticket e = some t ∧ s.isOpen t.approach = true
        ∧ s.fitsEscort t.mass = true ∧ g = { st := grantEscort t s, shows := [] })
      ∨ (s.admission.escortSlot = none ∧ s.escortHoldsClaims = false ∧ ∃ a t, s.offers a = some t
        ∧ s.fits t.mass = true
        ∧ (g = grantHead t s
          ∨ g = grantHead t (s.setSkip s.admission.turn (s.admission.skip.get s.admission.turn + 1)))) := by
  unfold arbiterPass at h
  split at h
  · next e he =>
    split at h
    · cases h
    · next t ht =>
      split at h
      · next hc => exact .inl ⟨e, t, he, ht, hc.1, hc.2, (Option.some.inj h).symm⟩
      · cases h
  · next he =>
    split at h
    · cases h
    · next hc =>
      refine .inr ⟨he, by simpa using hc, ?_⟩
      unfold passOverHeads at h
      dsimp only at h
      split at h
      · split at h
        · cases h
        · next t ht =>
          split at h
          · next hf => exact ⟨_, t, ht, hf, .inl (Option.some.inj h).symm⟩
          · cases h
      · next t ht =>
        split at h
        · next hf => exact ⟨_, t, ht, hf, .inl (Option.some.inj h).symm⟩
        · split at h
          · cases h
          · split at h
            · cases h
            · next u hu =>
              split at h
              · next hf => exact ⟨_, u, hu, hf, .inr (Option.some.inj h).symm⟩
              · cases h

/-- What every grant keeps, a run's passes keep. -/
theorem grants_st (P : State → Prop) (pass : ∀ s g, arbiterPass s = some g → P s → P g.st) (n : Nat) {s : State}
    (h : P s) : P (grants n s).st := by
  induction n generalizing s with
  | zero => exact h
  | succ n ih =>
    unfold grants
    split
    · exact h
    · next g hg => exact ih (pass s g hg h)

/-- What every derivation of a record keeps, a set of them keeps. -/
theorem deriveRecords_st (P : State → Prop) (derive : ∀ a r s, P s → P (deriveRecord a r s).st)
    (rs : List (Approach × RecordId)) {s : State} (h : P s) : P (deriveRecords rs s).st :=
  Eff.each_st P (fun a _ _ hs => Eff.each_st P (fun r _ s hs => derive a r s hs) hs) h

/-- What every grant and every derivation keeps, a run keeps. -/
theorem arbiterRun_st (P : State → Prop) (pass : ∀ s g, arbiterPass s = some g → P s → P g.st)
    (derive : ∀ a r s, P s → P (deriveRecord a r s).st) {s : State} (h : P s) : P (arbiterRun s).st :=
  deriveRecords_st P derive _ (grants_st P pass _ h)

/-- A run in which no pass grants changes nothing. -/
theorem arbiterRun_idle {s : State} (h : arbiterPass s = none) : arbiterRun s = Eff.of s := by
  have hg : ∀ n, grants n s = { st := s, shows := [] } := by
    intro n
    cases n with
    | zero => rfl
    | succ n => unfold grants; rw [h]
  unfold arbiterRun
  rw [hg]
  rfl

end Sys2Proof.Machine
end

