-- ==== Sys2Proof/Laws/Reads.lean ====
section
/-! SUPPORT. What a read gives after a write: tickets, dues, links, spans, lane and bay records, modes, places, hold
queues. -/

namespace Sys2Proof.Machine

/-! ## Tickets -/

/-- A record found under a handle carries that handle. -/
theorem State.ticket_handle {s : State} {h : Handle} {t : Ticket} (ht : s.ticket h = some t) : t.handle = h := by
  have := List.find?_some ht
  simpa using this

/-- Searching a list of tickets under an update of one of them. -/
theorem find_map_ticket (ts : List Ticket) (h g : Handle) (f : Ticket → Ticket) (hf : ∀ t, (f t).handle = t.handle) :
    (ts.map fun t => if t.handle = h then f t else t).find? (fun t => t.handle == g)
      = (ts.find? fun t => t.handle == g).map fun t => if t.handle = h then f t else t := by
  induction ts with
  | nil => rfl
  | cons t ts ih =>
    have hh : (if t.handle = h then f t else t).handle = t.handle := by split <;> simp [hf]
    rw [List.map_cons, List.find?_cons, List.find?_cons, hh]
    split
    · rfl
    · exact ih

/-- A change of one ticket's record is read under its handle, and no other's changes. -/
theorem State.ticket_updTicket (s : State) (h g : Handle) (f : Ticket → Ticket) (hf : ∀ t, (f t).handle = t.handle) :
    (s.updTicket h f).ticket g = if g = h then (s.ticket g).map f else s.ticket g := by
  unfold State.ticket State.updTicket
  simp only
  rw [find_map_ticket _ _ _ _ hf]
  split
  · next hg =>
    subst hg
    cases hx : s.table.tickets.find? fun t => t.handle == g with
    | none => rfl
    | some t =>
      have ht : t.handle = g := State.ticket_handle (s := s) hx
      simp [ht]
  · next hg =>
    cases hx : s.table.tickets.find? fun t => t.handle == g with
    | none => rfl
    | some t =>
      have ht : t.handle = g := State.ticket_handle (s := s) hx
      simp [ht, hg]

/-- A new record is found under its handle, and the other records as before. -/
theorem find_insertTicket (t : Ticket) (ts : List Ticket) (g : Handle)
    (hn : ts.find? (fun u => u.handle == t.handle) = none) :
    (insertTicket t ts).find? (fun u => u.handle == g)
      = if g = t.handle then some t else ts.find? fun u => u.handle == g := by
  induction ts with
  | nil =>
    simp only [insertTicket, List.find?_cons, List.find?_nil]
    by_cases h : g = t.handle
    · simp [h]
    · have : (t.handle == g) = false := by simpa using fun h' => h h'.symm
      simp [this, h]
  | cons u us ih =>
    rw [List.find?_cons] at hn
    split at hn
    · cases hn
    · next hu =>
      unfold insertTicket
      split
      · rw [List.find?_cons]
        by_cases h : g = t.handle
        · simp [h]
        · have : (t.handle == g) = false := by simpa using fun h' => h h'.symm
          simp [this, h]
      · rw [List.find?_cons, ih hn]
        by_cases h : g = t.handle
        · subst h
          simp [hu]
        · simp only [h, if_false]
          rw [List.find?_cons]

theorem State.ticket_addTicket {s : State} {t : Ticket} (hn : s.ticket t.handle = none) (g : Handle) :
    (s.addTicket t).ticket g = if g = t.handle then some t else s.ticket g :=
  find_insertTicket t s.table.tickets g hn

/-- After a closing no record is found under the handle, and the other records as before. -/
theorem State.ticket_removeTicket (s : State) (t : Ticket) (g : Handle) :
    (s.removeTicket t).ticket g = if g = t.handle then none else s.ticket g := by
  unfold State.ticket State.removeTicket
  simp only
  rw [List.find?_filter]
  split
  · next h =>
    subst h
    rw [List.find?_eq_none]
    simp
  · next h =>
    congr 1
    funext u
    by_cases hu : u.handle = g
    · simp [hu, h]
    · simp [hu]

/-! ## Dues (R52, R53) -/

/-- Searching the deadline list after an insertion. -/
theorem find_insertDeadline (d : Deadline) (ds : List Deadline) (g : Handle)
    (hn : ∀ e ∈ ds, e.handle ≠ d.handle) :
    (insertDeadline d ds).find? (fun e => e.handle == g)
      = if g = d.handle then some d else ds.find? fun e => e.handle == g := by
  induction ds with
  | nil =>
    simp only [insertDeadline, List.find?_cons, List.find?_nil]
    by_cases h : g = d.handle
    · simp [h]
    · have : (d.handle == g) = false := by simpa using fun h' => h h'.symm
      simp [this, h]
  | cons e es ih =>
    have he : e.handle ≠ d.handle := hn e List.mem_cons_self
    have ih := ih fun x hx => hn x (List.mem_cons_of_mem _ hx)
    unfold insertDeadline
    split
    · rw [List.find?_cons]
      by_cases h : g = d.handle
      · simp [h]
      · have : (d.handle == g) = false := by simpa using fun h' => h h'.symm
        simp [this, h]
    · rw [List.find?_cons, ih]
      by_cases h : g = d.handle
      · subst h
        have : (e.handle == d.handle) = false := by simpa using he
        simp [this]
      · simp only [h, if_false]
        rw [List.find?_cons]

/-- R53: a dropped due is not read, and the others are as before. -/
theorem State.dueOf_dropDue (s : State) (h g : Handle) :
    (s.dropDue h).dueOf g = if g = h then none else s.dueOf g := by
  unfold State.dueOf State.dropDue
  simp only
  rw [List.find?_filter]
  split
  · next hg =>
    subst hg
    rw [List.find?_eq_none]
    simp
  · next hg =>
    congr 1
    funext e
    by_cases he : e.handle = g
    · simp [he, hg]
    · simp [he]

/-- R53: the due of a ticket is the one inserted last, and the others are as before. -/
theorem State.dueOf_setDue (s : State) (h g : Handle) (kind : DueKind) (due : Time) :
    (s.setDue h kind due).dueOf g = if g = h then some ⟨due, h, kind⟩ else s.dueOf g := by
  unfold State.setDue
  have hn : ∀ e ∈ (s.dropDue h).deadlines, e.handle ≠ h := by
    intro e he
    simp only [State.dropDue, List.mem_filter] at he
    simpa using he.2
  have := find_insertDeadline ⟨due, h, kind⟩ (s.dropDue h).deadlines g hn
  unfold State.dueOf
  simp only at this ⊢
  rw [this]
  split
  · rfl
  · next hg => simpa [State.dueOf, hg] using State.dueOf_dropDue s h g

/-- A due read from a list whose head is another's is read from its rest. -/
theorem State.dueOf_tail {s : State} {d : Deadline} {ds : List Deadline} (h : s.deadlines = d :: ds) {g : Handle}
    (hg : g ≠ d.handle) : (({ s with deadlines := ds } : State).dueOf g) = s.dueOf g := by
  have : (d.handle == g) = false := by simpa using fun h' => hg h'.symm
  simp [State.dueOf, h, this]

/-! ## One of a kind -/

theorem State.link_updLink (s : State) (k j : LinkNo) (f : LinkRec → LinkRec) :
    (s.updLink k f).link j = if j = k then f (s.link j) else s.link j := by
  simp only [State.link, State.updLink, upd_get]

theorem State.spanRec_updSpan (s : State) (i j : SpanNo) (f : SpanRec → SpanRec) :
    (s.updSpan i f).spanRec j = if j = i then f (s.spanRec j) else s.spanRec j := by
  simp only [State.spanRec, State.updSpan, upd_get]

theorem State.line_updLine (s : State) (d e : LineNo) (f : LineRec → LineRec) :
    (s.updLine d f).line e = if e = d then f (s.line e) else s.line e := by
  simp only [State.line, State.updLine, upd_get]

@[simp] theorem State.mode_updMode_self (s : State) (a : Approach) (f : Mode → Mode) :
    (s.updMode a f).mode a = f (s.mode a) := by
  simp [State.mode, State.updMode]

theorem State.mode_updMode_of_ne (s : State) {a b : Approach} (f : Mode → Mode) (h : b ≠ a) :
    (s.updMode a f).mode b = s.mode b := by
  simp [State.mode, State.updMode, Both.get_set_of_ne _ _ h]

@[simp] theorem State.places_updPlaces_self (s : State) (a : Approach) (f : Places → Places) :
    (s.updPlaces a f).places a = f (s.places a) := by
  simp [State.places, State.updPlaces]

theorem State.places_updPlaces_of_ne (s : State) {a b : Approach} (f : Places → Places) (h : b ≠ a) :
    (s.updPlaces a f).places b = s.places b := by
  simp [State.places, State.updPlaces, Both.get_set_of_ne _ _ h]

@[simp] theorem State.hold_setHold_self (s : State) (a : Approach) (q : HoldQueue) : (s.setHold a q).hold a = q := by
  unfold State.setHold
  dsimp only
  split <;> simp [State.hold, State.setSkip]

@[simp] theorem State.signal_setSignal_self (s : State) (a : Approach) (x : BaySignal) :
    (s.setSignal a x).signal a = x := by
  simp [State.signal, State.setSignal]

@[simp] theorem State.lane_setLane_self (s : State) (a : Approach) (l : LaneNo) (r : AspectRec Aspect) :
    (s.setLane a l r).lane a l = r := by
  simp [State.lane, State.setLane]

@[simp] theorem State.bay_setBay_self (s : State) (a : Approach) (r : AspectRec BayAspect) :
    (s.setBay a r).bay a = r := by
  simp [State.bay, State.setBay]

/-! ## Aspect records -/

/-- R116: the note of a change of FAILED touches the modes alone. -/
theorem noteFailed_aspects (a : Approach) (was now : Bool) (s : State) : (noteFailed a was now s).st.aspects = s.aspects := by
  unfold noteFailed
  split <;> rfl

@[simp] theorem putLane_lane (a : Approach) (l : LaneNo) (r : AspectRec Aspect) (s : State) :
    (putLane a l r s).st.lane a l = r := by
  have : (putLane a l r s).st.aspects = (s.setLane a l r).aspects := noteFailed_aspects ..
  unfold State.lane
  rw [this]
  exact State.lane_setLane_self s a l r

@[simp] theorem putBay_bay (a : Approach) (r : AspectRec BayAspect) (s : State) : (putBay a r s).st.bay a = r := by
  have : (putBay a r s).st.aspects = (s.setBay a r).aspects := noteFailed_aspects ..
  unfold State.bay
  rw [this]
  exact State.bay_setBay_self s a r

/-- R146: an offered order changes a link alone. -/
theorem offerOrder_cases (a : Approach) (kind : TxKind) (payload : List Byte) (s : State) :
    (offerOrder a kind payload s).1 = { s with links := (offerOrder a kind payload s).1.links } := by
  unfold offerOrder
  split
  · rfl
  · dsimp only
    split
    · rfl
    · split <;> rfl

/-- R111: an attempt leaves the wanted aspect as it is. -/
theorem attempted_wanted {α : Type} (r : AspectRec α) (x : α) (got : Option Byte) (due : Time) :
    (r.attempted x got due).wanted = r.wanted := by
  unfold AspectRec.attempted; split <;> rfl

/-- R121: so does the doubt of a failed bay attempt. -/
theorem doubted_wanted {α : Type} (r : AspectRec α) (got : Option Byte) : (r.doubted got).wanted = r.wanted := by
  unfold AspectRec.doubted; split <;> rfl

theorem orderLane_wanted (a : Approach) (l : LaneNo) (x : Aspect) (h : Handle) (s : State) :
    ((orderLane a l x h s).st.lane a l).wanted = (s.lane a l).wanted := by
  unfold orderLane
  rw [putLane_lane, attempted_wanted, offerOrder_cases]
  rfl

theorem orderBay_wanted (a : Approach) (x : BayAspect) (h : Handle) (s : State) :
    ((orderBay a x h s).st.bay a).wanted = (s.bay a).wanted := by
  unfold orderBay
  rw [putBay_bay, doubted_wanted, attempted_wanted, offerOrder_cases]
  rfl

/-- R111, R112: a lane's wanted aspect takes its value whatever becomes of the order. -/
theorem wantLane_wanted (a : Approach) (l : LaneNo) (x : Aspect) (s : State) :
    ((wantLane a l x s).st.lane a l).wanted = x := by
  unfold wantLane
  dsimp only
  split
  · next h => exact h
  · split
    all_goals simp

/-- R111, R112: a bay signal's wanted aspect takes its value whatever becomes of the order. -/
theorem wantBay_wanted (a : Approach) (x : BayAspect) (s : State) : ((wantBay a x s).st.bay a).wanted = x := by
  unfold wantBay
  dsimp only
  split
  · next h => exact h
  · split
    all_goals simp

end Sys2Proof.Machine
end

