-- ==== Sys2Proof/Laws/Attempts.lean ====
section
/-! SUPPORT. What an order attempt does (R111, R112), said once, and the order in which the attempts of a step are made. -/

namespace Sys2Proof.Machine

/-- R116: a record that enters or leaves FAILED is counted and reported. -/
theorem noteFailed_eq (a : Approach) (was now : OrderState) (s : State) :
    noteFailed a was.isFailed now.isFailed s = countedFailed a was now s := by
  unfold noteFailed countedFailed
  cases was <;> cases now <;> simp [OrderState.isFailed, Eff.of]

/-- R111: an order attempt for a lane. -/
theorem orderLane_eq (a : Approach) (l : LaneNo) (x : Aspect) (h : Handle) (s : State) : orderLane a l x h s =
    (let r := s.lane a l
    let offer := offerOrder a .aspectOrder (one (l.val + 1) ++ one x.code ++ one h) s
    let r' := r.attempted x offer.2 (after s.now s.profile.confirmTime)
    countedFailed a r.order r'.order (offer.1.setLane a l r')) := by
  have same : (offerOrder a .aspectOrder (one (l.val + 1) ++ one x.code ++ one h) s).1.lane a l = s.lane a l := by
    rw [offerOrder_cases]
    rfl
  unfold orderLane putLane
  dsimp only
  rw [noteFailed_eq, same]

/-- R111, R121: an order attempt for a bay signal. -/
theorem orderBay_eq (a : Approach) (x : BayAspect) (h : Handle) (s : State) : orderBay a x h s =
    (let r := s.bay a
    let offer := offerOrder a .bayOrder (one x.code ++ one h) s
    let r' := (r.attempted x offer.2 (after s.now s.profile.confirmTime)).doubted offer.2
    countedFailed a r.order r'.order (offer.1.setBay a r')) := by
  have same : (offerOrder a .bayOrder (one x.code ++ one h) s).1.bay a = s.bay a := by
    rw [offerOrder_cases]
    rfl
  unfold orderBay putBay
  dsimp only
  rw [noteFailed_eq, same]

/-- R111: a lane that is IDLE or FAILED makes the attempt. -/
theorem act_attemptLane_free {a : Approach} {l : LaneNo} {s : State} (x : Aspect) (h : Handle)
    (free : (s.lane a l).order = .idle ∨ (s.lane a l).order = .failed) :
    act (.attemptLane a l x h) s = orderLane a l x h s := by
  show takeLaneAttempt a l x h s = _
  unfold takeLaneAttempt
  rcases free with e | e <;> rw [e]

/-- R112: on a lane that an earlier attempt has left AWAITING the aspect is pending. -/
theorem act_attemptLane_awaiting {a : Approach} {l : LaneNo} {s : State} {tag : Byte} {due : Time} (x : Aspect) (h : Handle)
    (e : (s.lane a l).order = .awaiting tag due) :
    act (.attemptLane a l x h) s = Eff.of (s.setLane a l { s.lane a l with pending := some x }) := by
  show takeLaneAttempt a l x h s = _
  unfold takeLaneAttempt
  split <;> simp_all

/-- R111: a bay signal that is IDLE or FAILED makes the attempt. -/
theorem act_attemptBay_free {a : Approach} {s : State} (x : BayAspect) (h : Handle)
    (free : (s.bay a).order = .idle ∨ (s.bay a).order = .failed) :
    act (.attemptBay a x h) s = orderBay a x h s := by
  show takeBayAttempt a x h s = _
  unfold takeBayAttempt
  rcases free with e | e <;> rw [e]

/-- R112: on a bay signal that an earlier attempt has left AWAITING the aspect is pending. -/
theorem act_attemptBay_awaiting {a : Approach} {s : State} {tag : Byte} {due : Time} (x : BayAspect) (h : Handle)
    (e : (s.bay a).order = .awaiting tag due) :
    act (.attemptBay a x h) s = Eff.of (s.setBay a { s.bay a with pending := some x }) := by
  show takeBayAttempt a x h s = _
  unfold takeBayAttempt
  split <;> simp_all

/-- The place of a record in the order of R111: lane 1, lane 2, lane 3, bay signal. -/
def placeOf : RecordId → Nat
  | .lane l => l.val
  | .bay => 3

/-- R111: of two attempts of one approach that are made together, the later is of no earlier record. -/
theorem inAttemptOrder_ordered (gs : List Signal) : (inAttemptOrder gs).Pairwise fun g g' =>
    ∀ a r r', g.attempts = some (a, r) → g'.attempts = some (a, r') → placeOf r ≤ placeOf r' := by
  have of_mem : ∀ {a : Approach} {r : RecordId} {g : Signal},
      g ∈ gs.filter (fun g => decide (g.attempts = some (a, r))) → g.attempts = some (a, r) :=
    fun h => of_decide_eq_true (List.mem_filter.1 h).2
  have of_approach : ∀ {a : Approach} {g : Signal},
      g ∈ (allRecords.flatMap fun r => gs.filter fun g => decide (g.attempts = some (a, r))) →
      ∃ r, g.attempts = some (a, r) := fun h => by
    obtain ⟨r, _, h⟩ := List.mem_flatMap.1 h
    exact ⟨r, of_mem h⟩
  unfold inAttemptOrder
  rw [List.pairwise_flatMap]
  refine ⟨fun a _ => ?_, ?_⟩
  · rw [List.pairwise_flatMap]
    refine ⟨fun r _ => ?_, ?_⟩
    · refine List.pairwise_of_forall_mem_list fun g hg g' hg' b x y hx hy => ?_
      rw [of_mem hg] at hx
      rw [of_mem hg'] at hy
      cases hx
      cases hy
      exact Nat.le_refl _
    · refine List.Pairwise.imp (R := fun r r' => placeOf r ≤ placeOf r') (fun h g hg g' hg' b x y hx hy => ?_) (by decide)
      rw [of_mem hg] at hx
      rw [of_mem hg'] at hy
      cases hx
      cases hy
      exact h
  · refine List.Pairwise.imp (R := fun a b => a ≠ b) (fun h g hg g' hg' b x y hx hy => ?_) (by decide)
    obtain ⟨_, e⟩ := of_approach hg
    obtain ⟨_, e'⟩ := of_approach hg'
    rw [e] at hx
    rw [e'] at hy
    cases hx
    cases hy
    exact absurd rfl h

end Sys2Proof.Machine
end

