-- ==== Sys2Proof/Laws/Moves.lean ====
section
/-! SUPPORT. What a move of one ticket does (R83 to R93), said once. -/

namespace Sys2Proof.Machine

/-- R6: flags change nothing but the flags. -/
theorem Ticket.flagAll_fields (fs : List TicketFlag) (t : Ticket) : t.flagAll fs = { t with flags := (t.flagAll fs).flags } := by
  unfold Ticket.flagAll
  induction fs generalizing t with
  | nil => rfl
  | cons f fs ih =>
    rw [List.foldl_cons, ih]
    rfl

theorem Ticket.flagAll_handle (fs : List TicketFlag) (t : Ticket) : (t.flagAll fs).handle = t.handle := by
  rw [Ticket.flagAll_fields]

/-- Flags and the current span are written independently. -/
theorem Ticket.flagAll_span (fs : List TicketFlag) (t : Ticket) (i : Option SpanNo) :
    { t.flagAll fs with span := i } = ({ t with span := i } : Ticket).flagAll fs := by
  unfold Ticket.flagAll
  induction fs generalizing t with
  | nil => rfl
  | cons f fs ih =>
    rw [List.foldl_cons, List.foldl_cons, ih]
    rfl

theorem Ticket.flagAll_append (fs : List TicketFlag) (f : TicketFlag) (t : Ticket) :
    t.flagAll (fs ++ [f]) = (t.flagAll fs).flag f := by
  simp [Ticket.flagAll]

/-! ## Only one ticket moves -/

theorem OnlyTicket.refl (s : State) (h : Handle) : OnlyTicket s s h := ⟨rfl, rfl, fun _ _ => ⟨rfl, rfl⟩⟩

theorem OnlyTicket.trans {s t u : State} {h : Handle} (a : OnlyTicket s t h) (b : OnlyTicket t u h) :
    OnlyTicket s u h := by
  refine ⟨?_, ?_, fun g hg => ⟨(b.2.2 g hg).1.trans (a.2.2 g hg).1, (b.2.2 g hg).2.trans (a.2.2 g hg).2⟩⟩
  · rw [b.1, a.1]
  · rw [b.2.1, a.2.1]

theorem onlyTicket_updTicket (s : State) (h : Handle) (f : Ticket → Ticket) (hf : ∀ t, (f t).handle = t.handle) :
    OnlyTicket s (s.updTicket h f) h :=
  ⟨rfl, rfl, fun g hg => ⟨by rw [State.ticket_updTicket _ _ _ _ hf, if_neg hg], rfl⟩⟩

theorem onlyTicket_updPlaces (s : State) (a : Approach) (f : Places → Places) (h : Handle) :
    OnlyTicket s (s.updPlaces a f) h := ⟨rfl, rfl, fun _ _ => ⟨rfl, rfl⟩⟩

theorem onlyTicket_dropDue (s : State) (h : Handle) : OnlyTicket s (s.dropDue h) h :=
  ⟨rfl, rfl, fun g hg => ⟨rfl, by rw [State.dueOf_dropDue, if_neg hg]⟩⟩

theorem onlyTicket_setDue (s : State) (h : Handle) (kind : DueKind) (due : Time) :
    OnlyTicket s (s.setDue h kind due) h :=
  ⟨rfl, rfl, fun g hg => ⟨rfl, by rw [State.dueOf_setDue, if_neg hg]⟩⟩

theorem onlyTicket_setHold (s : State) (a : Approach) (q : HoldQueue) (h : Handle) : OnlyTicket s (s.setHold a q) h := by
  unfold State.setHold
  dsimp only
  split <;> exact ⟨rfl, rfl, fun _ _ => ⟨rfl, rfl⟩⟩

/-- The removal of a head from the deadline list, where it is the ticket's. -/
theorem onlyTicket_taken {s : State} {d : Deadline} {ds : List Deadline} (hd : s.deadlines = d :: ds) :
    OnlyTicket s { s with deadlines := ds } d.handle :=
  ⟨rfl, rfl, fun _ hg => ⟨rfl, State.dueOf_tail hd hg⟩⟩

/-! ## What a move leaves to be said: reports, skip counts, places by weigh time -/

/-- R83: the reports of a move are what the places before and after it call for. -/
theorem reportsTheMove_of {s : State} {e : Eff} {a : Approach} {now : State} (hp : e.st.places a = now.places a)
    (ho : ∀ g ∈ moveSignals a s now, g ∈ e.out) : ReportsTheMove s e a := by
  have hl : ∀ l, e.st.laneHead a l = now.laneHead a l := by
    intro l; unfold State.laneHead State.laneList; rw [hp]
  refine ⟨fun l h => ho _ ?_, fun h h' => ho _ ?_⟩
  · refine List.mem_append_left _ (List.mem_map.2 ⟨l, List.mem_filter.2 ⟨?_, ?_⟩, rfl⟩)
    · exact (by decide : ∀ l : LaneNo, l ∈ allLanes) l
    · rw [hl] at h; exact decide_eq_true (Ne.symm h)
  · refine List.mem_append_right _ ?_
    rw [hp] at h'
    rw [if_pos ⟨Option.isSome_iff_ne_none.2 h, h'⟩]
    exact List.mem_singleton.2 rfl

/-- The reports of a move are of lanes and of the leaving slot. -/
theorem moveSignals_notLast (a : Approach) (s t : State) : .noLiveTicket ∉ moveSignals a s t := by
  unfold moveSignals
  intro h
  rcases List.mem_append.1 h with h | h
  · obtain ⟨l, -, hl⟩ := List.mem_map.1 h; cases hl
  · split at h
    · cases List.mem_singleton.1 h
    · cases h

/-- R62: the law of the skip count reads the approach's hold queue and the skip counts alone. -/
theorem SkipFollowsHead.of_queues {s s' t t' : State} {a : Approach} (h : SkipFollowsHead s t a)
    (hs : s'.hold a = s.hold a) (hs' : s'.admission.skip = s.admission.skip)
    (ht : t'.hold a = t.hold a) (ht' : t'.admission.skip = t.admission.skip) : SkipFollowsHead s' t' a := by
  unfold SkipFollowsHead at h ⊢
  dsimp only at h ⊢
  rw [hs, hs', ht, ht']
  exact h

theorem SkipFollowsHead.of_admission {s s' t t' : State} {a : Approach} (h : SkipFollowsHead s t a)
    (hs : s'.admission = s.admission) (ht : t'.admission = t.admission) : SkipFollowsHead s' t' a :=
  h.of_queues (congrArg (fun x => x.hold.get a) hs) (congrArg Admission.skip hs) (congrArg (fun x => x.hold.get a) ht)
    (congrArg Admission.skip ht)

/-- R62: a head that stays keeps its skip count. -/
theorem SkipFollowsHead.refl (s : State) (a : Approach) : SkipFollowsHead s s a :=
  ⟨fun _ => rfl, fun h => (h rfl).elim⟩

/-- R62: a change of a hold queue has the skip count follow its head. -/
theorem skipFollowsHead_setHold (s : State) (a : Approach) (q : HoldQueue) : SkipFollowsHead s (s.setHold a q) a := by
  have hq : (s.setHold a q).hold a = q := State.hold_setHold_self s a q
  unfold SkipFollowsHead
  dsimp only
  rw [hq]
  unfold State.setHold HoldQueue.head State.setSkip
  dsimp only
  refine ⟨fun h => ?_, fun h => ?_⟩
  · rw [decide_eq_true h.symm, if_pos rfl]
  · rw [decide_eq_false (Ne.symm h), if_neg Bool.false_ne_true]

/-- R60, R82: where a ticket joins a list that is kept by weigh time. -/
theorem insertByWeighTime_split (timeOf : Handle → Time) (h : Handle) (w : Time) (hs : List Handle) :
    ∃ front back, hs = front ++ back ∧ insertByWeighTime timeOf h w hs = front ++ h :: back
      ∧ (∀ g ∈ front, earlier w (timeOf g) = false) ∧ ∀ g, back.head? = some g → earlier w (timeOf g) = true := by
  induction hs with
  | nil => exact ⟨[], [], rfl, rfl, by simp, by simp⟩
  | cons g gs ih =>
    unfold insertByWeighTime
    by_cases hg : earlier w (timeOf g) = true
    · refine ⟨[], g :: gs, rfl, by rw [if_pos hg]; rfl, by simp, ?_⟩
      intro x hx
      rw [List.head?_cons, Option.some.injEq] at hx
      rw [← hx]
      exact hg
    · obtain ⟨front, back, h1, h2, h3, h4⟩ := ih
      refine ⟨g :: front, back, by rw [h1]; rfl, by rw [if_neg hg, h2]; rfl, ?_, h4⟩
      intro x hx
      rcases List.mem_cons.1 hx with hx | hx
      · rw [hx]
        exact Bool.eq_false_iff.2 hg
      · exact h3 x hx

/-- R60, R82: a ticket that joins by its weigh time adds one to the list. -/
theorem insertByWeighTime_length (timeOf : Handle → Time) (h : Handle) (w : Time) (hs : List Handle) :
    (insertByWeighTime timeOf h w hs).length = hs.length + 1 := by
  obtain ⟨front, back, h1, h2, -⟩ := insertByWeighTime_split timeOf h w hs
  rw [h2, h1, List.length_append, List.length_append, List.length_cons]
  rfl

theorem earliest_mem {timeOf : Handle → Time} {g : Handle} {hs : List Handle} (h : earliest timeOf hs = some g) :
    g ∈ hs := by
  induction hs generalizing g with
  | nil => cases h
  | cons x xs ih =>
    unfold earliest at h
    split at h
    · exact List.mem_cons.2 (.inl (Option.some.inj h).symm)
    · next y hy =>
      split at h
      · exact List.mem_cons_of_mem _ (Option.some.inj h ▸ ih hy)
      · exact List.mem_cons.2 (.inl (Option.some.inj h).symm)

/-- R82: the earliest of a list: later than none of those behind it, and earlier than every one before it. -/
theorem earliest_of_split {timeOf : Handle → Time} {h : Handle} {hs gs : List Handle}
    (before : ∀ g ∈ hs, earlier (timeOf h) (timeOf g) = true)
    (behind : ∀ g ∈ gs, earlier (timeOf g) (timeOf h) = false) : earliest timeOf (hs ++ h :: gs) = some h := by
  induction hs with
  | nil =>
    show earliest timeOf (h :: gs) = _
    unfold earliest
    split
    · rfl
    · next g hg => rw [behind g (earliest_mem hg), if_neg Bool.false_ne_true]
  | cons x xs ih =>
    show earliest timeOf (x :: (xs ++ h :: gs)) = _
    rw [earliest, ih fun g hg => before g (List.mem_cons_of_mem _ hg)]
    exact if_pos (before x (List.mem_cons.2 (.inl rfl)))

/-! ## What the moves and the grants leave of the admission unit -/

theorem runIn_admission (s : State) (t : Ticket) (fs : List TicketFlag) (due : Time) :
    (s.runIn t fs due).admission = s.admission := rfl

theorem watchIt_admission (s : State) (t : Ticket) (fs : List TicketFlag) (due : Time) :
    (s.watchIt t fs due).admission = s.admission := rfl

theorem bayArrive_admission (t : Ticket) (arrival : Time) (s : State) :
    (bayArrive t arrival s).st.admission = (s.setHold t.approach
      { bay := (s.hold t.approach).bay ++ [t.handle],
        nearing := (s.hold t.approach).nearing.filter fun g => g != t.handle }).admission := rfl

theorem setHold_admission (s : State) (a : Approach) (q : HoldQueue) :
    (s.setHold a q).admission
      = { s.admission with hold := s.admission.hold.set a q, skip := (s.setHold a q).admission.skip } := by
  unfold State.setHold
  dsimp only
  split <;> rfl

theorem placeUnforced_admission (s : State) (h : Handle) (m : Nat) : (s.placeUnforced h m).admission = s.admission := by
  have all : ∀ (is : List SpanNo) (s : State),
      (is.foldl (fun s i => s.updSpan i fun r => r.place m) s).admission = s.admission := by
    intro is
    induction is with
    | nil => exact fun _ => rfl
    | cons i is ih => exact fun s => ih (s.updSpan i fun r => r.place m)
  exact all _ s

/-! ## Leaving a place (R83) -/

theorem leavePlace_only (s : State) (t : Ticket) (new : TicketState) (fs : List TicketFlag) :
    OnlyTicket s (s.leavePlace t new fs) t.handle := by
  unfold State.leavePlace
  refine ((onlyTicket_updPlaces s t.approach _ t.handle).trans (onlyTicket_dropDue _ t.handle)).trans
    (onlyTicket_updTicket _ _ _ fun u => ?_)
  exact Ticket.flagAll_handle fs _

theorem leavePlace_ticket {s : State} {t : Ticket} (ht : s.ticket t.handle = some t) (new : TicketState)
    (fs : List TicketFlag) :
    (s.leavePlace t new fs).ticket t.handle = some (({ t with state := new } : Ticket).flagAll fs) := by
  unfold State.leavePlace
  rw [State.ticket_updTicket _ _ _ _ (fun u => by exact Ticket.flagAll_handle fs _), if_pos rfl]
  have : ((s.updPlaces t.approach fun p => p.without t.handle).dropDue t.handle).ticket t.handle = some t := ht
  rw [this]
  rfl

theorem leavePlace_places (s : State) (t : Ticket) (new : TicketState) (fs : List TicketFlag) :
    (s.leavePlace t new fs).places t.approach = (s.places t.approach).without t.handle := by
  show (s.updPlaces t.approach fun p => p.without t.handle).places t.approach = _
  exact State.places_updPlaces_self ..

/-! ## Running in, watched, in the bay, on a span -/

theorem runIn_only (s : State) (t : Ticket) (fs : List TicketFlag) (due : Time) :
    OnlyTicket s (s.runIn t fs due) t.handle :=
  ((leavePlace_only s t .runningIn fs).trans (onlyTicket_updPlaces _ _ _ _)).trans (onlyTicket_setDue ..)

theorem runIn_places (s : State) (t : Ticket) (fs : List TicketFlag) (due : Time) :
    (s.runIn t fs due).places t.approach
      = { (s.places t.approach).without t.handle with
          run := ((s.places t.approach).without t.handle).run ++ [t.handle] } := by
  show ((s.leavePlace t .runningIn fs).updPlaces t.approach fun p => { p with run := p.run ++ [t.handle] }).places _ = _
  rw [State.places_updPlaces_self, leavePlace_places]

theorem watchIt_only (s : State) (t : Ticket) (fs : List TicketFlag) (due : Time) :
    OnlyTicket s (s.watchIt t fs due) t.handle :=
  ((leavePlace_only s t .watched fs).trans (onlyTicket_updPlaces _ _ _ _)).trans (onlyTicket_setDue ..)

theorem watchIt_places (s : State) (t : Ticket) (fs : List TicketFlag) (due : Time) :
    (s.watchIt t fs due).places t.approach
      = { (s.places t.approach).without t.handle with
          watch := ((s.places t.approach).without t.handle).watch ++ [t.handle] } := by
  show ((s.leavePlace t .watched fs).updPlaces t.approach fun p => { p with watch := p.watch ++ [t.handle] }).places _ = _
  rw [State.places_updPlaces_self, leavePlace_places]

theorem bayArrive_only (s : State) (t : Ticket) (arrival : Time) :
    OnlyTicket s (bayArrive t arrival s).st t.handle :=
  ((onlyTicket_setHold s t.approach _ t.handle).trans
    (onlyTicket_updTicket _ t.handle (fun t => { t with state := .bayed }) fun _ => rfl)).trans (onlyTicket_setDue ..)

end Sys2Proof.Machine
end

