-- ==== Sys2Proof/Laws/Outside.lean ====
section
/-! SUPPORT. What no report between blocks touches: the profile, the lines, the directory, the straps, the queue of
commands, the timebase, the clearance due, the reset cause, the alert mask and the report due. -/

namespace Sys2Proof.Machine

/-- The second state differs from the first in no field that lies outside the reach of the reports between blocks. -/
structure Outside (s t : State) : Prop where
  profile : t.profile = s.profile
  lines : t.lines = s.lines
  directory : t.directory = s.directory
  centreLink : t.centreLink = s.centreLink
  pending : t.pending = s.pending
  part : t.part = { s.part with state := t.part.state }
  centre : t.centre = { s.centre with summary := t.centre.summary }

theorem Outside.refl (s : State) : Outside s s := ⟨rfl, rfl, rfl, rfl, rfl, rfl, rfl⟩

theorem Outside.trans {s t u : State} (h : Outside s t) (h' : Outside t u) : Outside s u where
  profile := h'.profile.trans h.profile
  lines := h'.lines.trans h.lines
  directory := h'.directory.trans h.directory
  centreLink := h'.centreLink.trans h.centreLink
  pending := h'.pending.trans h.pending
  part := by rw [h'.part, h.part]
  centre := by rw [h'.centre, h.centre]

theorem Outside.now {s t : State} (h : Outside s t) : t.now = s.now := by
  unfold State.now; rw [h.part]

theorem Outside.inReset {s t : State} (h : Outside s t) : t.inReset = s.inReset := by
  unfold State.inReset; rw [h.part]

theorem Outside.entry {s t : State} (h : Outside s t) (k : LinkNo) (p : PosNo) : t.entry k p = s.entry k p := by
  unfold State.entry; rw [h.directory]

/-! ## Each operation -/

theorem outside_updTicket (s : State) (h : Handle) (f : Ticket → Ticket) : Outside s (s.updTicket h f) :=
  ⟨rfl, rfl, rfl, rfl, rfl, rfl, rfl⟩
theorem outside_addTicket (s : State) (t : Ticket) : Outside s (s.addTicket t) := ⟨rfl, rfl, rfl, rfl, rfl, rfl, rfl⟩
theorem outside_removeTicket (s : State) (t : Ticket) : Outside s (s.removeTicket t) :=
  ⟨rfl, rfl, rfl, rfl, rfl, rfl, rfl⟩
theorem outside_updTable (s : State) (f : Table → Table) : Outside s (s.updTable f) :=
  ⟨rfl, rfl, rfl, rfl, rfl, rfl, rfl⟩
theorem outside_dropDue (s : State) (h : Handle) : Outside s (s.dropDue h) := ⟨rfl, rfl, rfl, rfl, rfl, rfl, rfl⟩
theorem outside_setDue (s : State) (h : Handle) (kind : DueKind) (due : Time) : Outside s (s.setDue h kind due) :=
  ⟨rfl, rfl, rfl, rfl, rfl, rfl, rfl⟩
theorem outside_updLink (s : State) (k : LinkNo) (f : LinkRec → LinkRec) : Outside s (s.updLink k f) :=
  ⟨rfl, rfl, rfl, rfl, rfl, rfl, rfl⟩
theorem outside_enqueue (s : State) (k : LinkNo) (f : TxFrame) : Outside s (s.enqueue k f) := outside_updLink s k _
theorem outside_setEvent (s : State) (e : Event) : Outside s (s.setEvent e) := ⟨rfl, rfl, rfl, rfl, rfl, rfl, rfl⟩
theorem outside_updSpan (s : State) (i : SpanNo) (f : SpanRec → SpanRec) : Outside s (s.updSpan i f) :=
  ⟨rfl, rfl, rfl, rfl, rfl, rfl, rfl⟩
theorem outside_settleTargets (s : State) (i : SpanNo) : Outside s (s.settleTargets i) := outside_updSpan s i _
theorem outside_updMode (s : State) (a : Approach) (f : Mode → Mode) : Outside s (s.updMode a f) :=
  ⟨rfl, rfl, rfl, rfl, rfl, rfl, rfl⟩
theorem outside_dropCause (s : State) (a : Approach) (c : Cause) : Outside s (s.dropCause a c) :=
  outside_updMode s a _
theorem outside_updPlaces (s : State) (a : Approach) (f : Places → Places) : Outside s (s.updPlaces a f) :=
  ⟨rfl, rfl, rfl, rfl, rfl, rfl, rfl⟩
theorem outside_setLane (s : State) (a : Approach) (l : LaneNo) (r : AspectRec Aspect) :
    Outside s (s.setLane a l r) := ⟨rfl, rfl, rfl, rfl, rfl, rfl, rfl⟩
theorem outside_setBay (s : State) (a : Approach) (r : AspectRec BayAspect) : Outside s (s.setBay a r) :=
  ⟨rfl, rfl, rfl, rfl, rfl, rfl, rfl⟩
theorem outside_setSignal (s : State) (a : Approach) (x : BaySignal) : Outside s (s.setSignal a x) :=
  ⟨rfl, rfl, rfl, rfl, rfl, rfl, rfl⟩
theorem outside_setSkip (s : State) (a : Approach) (n : Nat) : Outside s (s.setSkip a n) :=
  ⟨rfl, rfl, rfl, rfl, rfl, rfl, rfl⟩
theorem outside_setTurn (s : State) (a : Approach) : Outside s (s.setTurn a) := ⟨rfl, rfl, rfl, rfl, rfl, rfl, rfl⟩
theorem outside_admission (s : State) (f : Admission) : Outside s { s with admission := f } :=
  ⟨rfl, rfl, rfl, rfl, rfl, rfl, rfl⟩
theorem outside_tableWith (s : State) (f : Table) : Outside s { s with table := f } := ⟨rfl, rfl, rfl, rfl, rfl, rfl, rfl⟩

theorem outside_raise (s : State) (e : Event) (a : Option Approach) (i : Option SpanNo) (h : Handle) :
    Outside s (s.raise e a i h) :=
  ⟨by simp, by simp, by simp, by simp, by simp, by simp, s.raise_centre e a i h⟩
theorem outside_offer (s : State) (k : LinkNo) (f : TxFrame) : Outside s (s.offer k f) :=
  ⟨by simp, by simp, by simp, by simp, by simp, by simp, s.offer_centre k f⟩
theorem outside_answer (s : State) (k : LinkNo) (f : Frame) (p : List Byte) : Outside s (s.answer k f p) :=
  outside_offer s k _
theorem outside_notify (s : State) (x : TxKind) (p : List Byte) : Outside s (s.notify x p) := by
  unfold State.notify; split
  · exact outside_offer ..
  · exact Outside.refl s

theorem outside_setHold (s : State) (a : Approach) (q : HoldQueue) : Outside s (s.setHold a q) := by
  unfold State.setHold; dsimp only; split
  · exact outside_admission s _
  · exact (outside_admission s _).trans (outside_setSkip ..)
theorem outside_joinNearing (s : State) (a : Approach) (h : Handle) : Outside s (s.joinNearing a h) :=
  outside_setHold s a _

/-! ## Span account -/

theorem outside_foldl {α : Type} (xs : List α) (f : State → α → State) (s : State)
    (h : ∀ s x, Outside s (f s x)) : Outside s (xs.foldl f s) := by
  induction xs generalizing s with
  | nil => exact Outside.refl s
  | cons x xs ih => exact (h s x).trans (ih (f s x))

theorem outside_each {α : Type} (xs : List α) (f : α → State → Eff) (s : State)
    (h : ∀ x s, Outside s (f x s).st) : Outside s (Eff.each xs f s).st :=
  Eff.each_st (Outside s) (fun x _ u hu => hu.trans (h x u)) (Outside.refl s)

theorem outside_placeUnforced (s : State) (h : Handle) (m : Nat) : Outside s (s.placeUnforced h m) :=
  (outside_foldl _ _ s fun s _ => outside_updSpan s ..).trans (outside_updTicket ..)

theorem outside_evalOverload (a : Option Approach) (h : Handle) (i : SpanNo) (s : State) :
    Outside s (evalOverload a h i s).st := by
  unfold evalOverload; dsimp only; split
  · exact (outside_updSpan s i _).trans (outside_raise ..)
  · exact outside_updSpan s i _

theorem outside_releaseClaims (h : Handle) (is : List SpanNo) (s : State) :
    Outside s (releaseClaims h is s).st := by
  unfold releaseClaims; split
  · exact Outside.refl s
  · dsimp only [Eff.emit_st]
    refine Outside.trans ?_ (outside_each _ _ _ fun i s => outside_evalOverload none 0 i s)
    refine Outside.trans ?_ (outside_foldl _ _ _ fun s i => outside_settleTargets s i)
    refine Outside.trans ?_ (outside_updTicket ..)
    exact outside_foldl _ _ _ fun s i => outside_updSpan s ..

/-! ## Aspects -/

theorem outside_noteFailed (a : Approach) (was now : Bool) (s : State) : Outside s (noteFailed a was now s).st := by
  unfold noteFailed; split
  · exact Outside.refl s
  · exact outside_updMode s a fun _ => _
theorem outside_putLane (a : Approach) (l : LaneNo) (r : AspectRec Aspect) (s : State) :
    Outside s (putLane a l r s).st := (outside_setLane s a l r).trans (outside_noteFailed ..)
theorem outside_putBay (a : Approach) (r : AspectRec BayAspect) (s : State) : Outside s (putBay a r s).st :=
  (outside_setBay s a r).trans (outside_noteFailed ..)

theorem outside_offerOrder (a : Approach) (x : TxKind) (p : List Byte) (s : State) :
    Outside s (offerOrder a x p s).1 := by
  unfold offerOrder; split
  · exact Outside.refl s
  · dsimp only; split
    · exact Outside.refl s
    · split
      · exact (outside_updLink s _ _).trans (outside_enqueue ..)
      · exact outside_updLink s _ _

theorem outside_orderLane (a : Approach) (l : LaneNo) (x : Aspect) (h : Handle) (s : State) :
    Outside s (orderLane a l x h s).st := (outside_offerOrder ..).trans (outside_putLane ..)
theorem outside_attemptLane (a : Approach) (l : LaneNo) (x : Aspect) (s : State) :
    Outside s (attemptLane a l x s).st := outside_orderLane ..
theorem outside_takeLaneAttempt (a : Approach) (l : LaneNo) (x : Aspect) (h : Handle) (s : State) :
    Outside s (takeLaneAttempt a l x h s).st := by
  unfold takeLaneAttempt
  split <;> first | exact outside_orderLane .. | exact outside_setLane s a l _
theorem outside_orderBay (a : Approach) (x : BayAspect) (h : Handle) (s : State) : Outside s (orderBay a x h s).st :=
  (outside_offerOrder ..).trans (outside_putBay ..)
theorem outside_attemptBay (a : Approach) (x : BayAspect) (s : State) : Outside s (attemptBay a x s).st :=
  outside_orderBay ..
theorem outside_takeBayAttempt (a : Approach) (x : BayAspect) (h : Handle) (s : State) :
    Outside s (takeBayAttempt a x h s).st := by
  unfold takeBayAttempt
  split <;> first | exact outside_orderBay .. | exact outside_setBay s a _

theorem outside_wantLane (a : Approach) (l : LaneNo) (x : Aspect) (s : State) :
    Outside s (wantLane a l x s).st := by
  unfold wantLane; dsimp only; split
  · exact Outside.refl s
  · split
    all_goals exact outside_setLane s a l _
theorem outside_wantBay (a : Approach) (x : BayAspect) (s : State) : Outside s (wantBay a x s).st := by
  unfold wantBay; dsimp only; split
  · exact Outside.refl s
  · split
    all_goals exact outside_setBay s a _

theorem outside_deriveLane (a : Approach) (l : LaneNo) (s : State) : Outside s (deriveLane a l s).st := by
  unfold deriveLane
  repeat' split
  all_goals first | exact Outside.refl s | exact outside_wantLane ..
theorem outside_deriveLanes (a : Approach) (s : State) : Outside s (deriveLanes a s).st :=
  outside_each _ _ s fun l s => outside_deriveLane a l s
theorem outside_deriveBay (a : Approach) (s : State) : Outside s (deriveBay a s).st := by
  unfold deriveBay; split
  · exact Outside.refl s
  · exact outside_wantBay ..

theorem outside_lostRecord (a : Approach) (r : RecordId) (s : State) : Outside s (lostRecord a r s).st := by
  cases r
  · exact outside_putLane ..
  · exact outside_putBay ..
theorem outside_shownRecord (a : Approach) (r : RecordId) (s : State) : Outside s (shownRecord a r s).st := by
  cases r with
  | lane l =>
    show Outside s (shownLane a l s).st
    unfold shownLane; dsimp only; split
    · exact outside_putLane ..
    · split
      · exact outside_putLane ..
      · exact (outside_putLane ..).trans (outside_attemptLane ..)
  | bay =>
    show Outside s (shownBay a s).st
    unfold shownBay; dsimp only; split
    · exact outside_putBay ..
    · split
      · exact outside_putBay ..
      · exact (outside_putBay ..).trans (outside_attemptBay ..)
theorem outside_resendFailed (a : Approach) (save : Option RecordId) (s : State) :
    Outside s (resendFailed a save s).st := by
  refine outside_each _ _ s fun r s => ?_
  unfold resendRecord; split
  · cases r
    · exact outside_attemptLane ..
    · exact outside_attemptBay ..
  · exact Outside.refl s
theorem outside_failOutstanding (a : Approach) (s : State) : Outside s (failOutstanding a s).st := by
  refine outside_each _ _ s fun r s => ?_
  split
  · exact outside_lostRecord ..
  · exact Outside.refl s

/-! ## Modes -/

theorem outside_putCause (s : State) (a : Approach) (c : Cause) : Outside s (s.putCause a c) := by
  unfold State.putCause; dsimp only; split
  · exact outside_updMode s a _
  · exact (outside_updMode s a _).trans (outside_raise ..)
theorem outside_countermand (s : State) (a : Approach) : Outside s (s.countermand a) :=
  (outside_tableWith s _).trans (outside_setHold ..)
theorem outside_enterDivertAll (a : Approach) (s : State) : Outside s (enterDivertAll a s).st :=
  ((outside_updMode s a _).trans (outside_countermand ..)).trans (outside_deriveLanes ..)
theorem outside_openApproach (a : Approach) (s : State) : Outside s (openApproach a s).st :=
  (outside_updMode s a _).trans (outside_deriveLanes ..)
theorem outside_addCause (a : Approach) (c : Cause) (s : State) : Outside s (addCause a c s).st := by
  unfold addCause; split
  · exact Outside.refl s
  · split
    · exact (outside_putCause ..).trans (outside_enterDivertAll ..)
    · exact outside_putCause ..
theorem outside_removeCause (a : Approach) (c : Cause) (s : State) : Outside s (removeCause a c s).st := by
  unfold removeCause; split
  · exact Outside.refl s
  · dsimp only; split
    · exact (outside_dropCause ..).trans (outside_openApproach ..)
    · exact outside_dropCause ..
theorem outside_addCauseBoth (c : Cause) (s : State) : Outside s (addCauseBoth c s).st := by
  have add : ∀ (a : Approach) (u : State), Outside u (if u.holds a c = true then u else u.putCause a c) := by
    intro a u; split
    · exact Outside.refl u
    · exact outside_putCause ..
  have entered : ∀ (a : Approach) (u : State),
      Outside u (if s.isOpen a = true then enterDivertAll a u else Eff.of u).st := by
    intro a u; split
    · exact outside_enterDivertAll ..
    · exact Outside.refl u
  exact ((add .A s).trans (add .B _)).trans ((entered .A _).trans (entered .B _))
theorem outside_removeCauseBoth (c : Cause) (s : State) : Outside s (removeCauseBoth c s).st := by
  have opened : ∀ (b : Prop) [Decidable b] (a : Approach) (u : State),
      Outside u (if b then openApproach a u else Eff.of u).st := by
    intro b _ a u; split
    · exact outside_openApproach ..
    · exact Outside.refl u
  exact ((outside_dropCause ..).trans (outside_dropCause ..)).trans ((opened _ .A _).trans (opened _ .B _))
theorem outside_weighLossSet (a : Approach) (s : State) : Outside s (weighLossSet a s).st := by
  unfold weighLossSet; dsimp only; split
  · exact outside_updMode s a fun _ => _
  · exact (outside_updMode s a _).trans (outside_addCause ..)
theorem outside_judgeWeighSilent (a : Approach) (s : State) : Outside s (judgeWeighSilent a s).st := by
  unfold judgeWeighSilent; split
  · exact outside_removeCause ..
  · exact outside_addCause ..
theorem outside_judgeGantryFault (a : Approach) (s : State) : Outside s (judgeGantryFault a s).st := by
  unfold judgeGantryFault; split
  · exact outside_removeCause ..
  · exact outside_addCause ..
theorem outside_judgePool (s : State) : Outside s (judgePool s).st := by
  unfold judgePool; split
  · exact (outside_removeCause ..).trans (outside_removeCause ..)
  · exact Outside.refl s
theorem outside_unticketedIntruder (a : Approach) (s : State) : Outside s (unticketedIntruder a s).st := by
  unfold unticketedIntruder; split
  · exact Outside.refl s
  · exact (outside_raise ..).trans (outside_addCauseBoth ..)

/-! ## Admission -/

theorem outside_releaseFromBay (s : State) (t : Ticket) (x : ReleaseKind) : Outside s (s.releaseFromBay t x) :=
  ((((outside_setHold s _ _).trans (outside_updTicket ..)).trans (outside_updPlaces ..)).trans
    (outside_setDue ..)).trans (outside_setSignal ..)
theorem outside_releaseToViaduct (s : State) (t : Ticket) : Outside s (s.releaseToViaduct t) :=
  ((outside_placeUnforced ..).trans (outside_updTicket ..)).trans (outside_releaseFromBay ..)
theorem outside_releaseToDiversion (t : Ticket) (s : State) : Outside s (releaseToDiversion t s).st :=
  ((outside_updTicket s _ _).trans (outside_releaseFromBay ..)).trans (outside_deriveBay ..)
theorem outside_divertOverdueHead (a : Approach) (s : State) : Outside s (divertOverdueHead a s).st := by
  unfold divertOverdueHead; split
  · exact Outside.refl s
  · split
    · exact outside_releaseToDiversion ..
    · exact Outside.refl s
theorem outside_leavingEmpty (a : Approach) (s : State) : Outside s (leavingEmpty a s).st :=
  ((outside_setSignal ..).trans (outside_deriveBay ..)).trans (outside_divertOverdueHead ..)
theorem outside_promote (s : State) (t : Ticket) : Outside s (s.promote t) :=
  ((outside_placeUnforced ..).trans (outside_updTicket ..)).trans (outside_setHold ..)
theorem outside_grantHead (t : Ticket) (s : State) : Outside s (grantHead t s).st := by
  unfold grantHead; dsimp only; split
  · exact (outside_setTurn s _).trans (outside_releaseToViaduct ..)
  · exact (outside_setTurn s _).trans (outside_promote ..)
theorem outside_grantEscort (t : Ticket) (s : State) : Outside s (grantEscort t s) :=
  (((((outside_placeUnforced ..).trans (outside_updTicket ..)).trans (outside_admission _ _)).trans
    (outside_updPlaces ..)).trans (outside_setDue ..)).trans (outside_notify ..)
theorem outside_arbiterPass {s : State} {g : Grant} (h : arbiterPass s = some g) : Outside s g.st := by
  rcases arbiterPass_grants h with ⟨e, t, -, -, -, -, rfl⟩ | ⟨-, -, a, t, -, -, rfl | rfl⟩
  · exact outside_grantEscort ..
  · exact outside_grantHead ..
  · exact (outside_setSkip ..).trans (outside_grantHead ..)
theorem outside_deriveRecord (a : Approach) (r : RecordId) (s : State) : Outside s (deriveRecord a r s).st := by
  cases r
  · exact outside_deriveLane ..
  · exact outside_deriveBay ..
theorem outside_arbiterRun (s : State) : Outside s (arbiterRun s).st :=
  arbiterRun_st (Outside s) (fun _ _ hg h => h.trans (outside_arbiterPass hg))
    (fun a r u h => h.trans (outside_deriveRecord a r u)) (Outside.refl s)
theorem outside_demote (h : Handle) (s : State) : Outside s (demote h s).st := by
  unfold demote; split
  · exact Outside.refl s
  · split
    · dsimp only
      refine Outside.trans ?_ (outside_releaseClaims ..)
      split
      · exact ((outside_updTicket ..).trans (outside_updTicket ..)).trans (outside_joinNearing ..)
      · exact (outside_updTicket ..).trans (outside_updTicket ..)
    · exact Outside.refl s

theorem outside_drained (s : State) : Outside s s.drained := by
  unfold State.drained; split
  · exact ⟨rfl, rfl, rfl, rfl, rfl, rfl, rfl⟩
  · exact Outside.refl s

/-! ## Reports -/

/-- No report touches what lies outside its reach. -/
theorem act_outside (g : Signal) (s : State) : Outside s (act g s).st := by
  cases g with
  | addCause a c => exact outside_addCause ..
  | removeCause a c => exact outside_removeCause ..
  | leftRunning => exact outside_addCauseBoth ..
  | enteredRunning => exact outside_removeCauseBoth ..
  | overloaded => exact outside_addCauseBoth ..
  | unticketedIntruder a => exact outside_unticketedIntruder ..
  | overloadAcknowledged => exact outside_removeCauseBoth ..
  | weighLoss a => exact outside_weighLossSet ..
  | judgeGantry a => exact outside_judgeGantryFault ..
  | judgeWeigh a => exact outside_judgeWeighSilent ..
  | deriveLane a l => exact outside_deriveLane ..
  | attemptLane a l x h => exact outside_takeLaneAttempt ..
  | attemptBay a x h => exact outside_takeBayAttempt ..
  | demote h => exact outside_demote ..
  | arbiter => exact outside_arbiterRun ..
  | leavingEmpty a => exact outside_leavingEmpty ..
  | poolReport => exact outside_judgePool ..
  | noLiveTicket => exact outside_drained ..

/-- Nor do all the reports that follow from a transition. -/
theorem settle_outside (e : Eff) : Outside e.st (settle e) :=
  settle_keeps (Outside e.st) (fun g s h => h.trans (act_outside g s)) (Outside.refl e.st)

end Sys2Proof.Machine
end

