-- ==== Sys2Proof/Laws/Closing.lean ====
section
/-! SUPPORT. What a release of claims and a closing do (R13 to R16, R32), said once. -/

namespace Sys2Proof.Machine

/-! ## Changes of the span account alone -/

/-- The second state differs from the first in the span account, and in what raising events changes: the links and the
event summary. -/
structure AccountOnly (s t : State) : Prop where
  table : t.table = s.table
  deadlines : t.deadlines = s.deadlines
  admission : t.admission = s.admission
  tracking : t.tracking = s.tracking
  aspects : t.aspects = s.aspects
  modes : t.modes = s.modes
  part : t.part = s.part
  outside : Outside s t

theorem AccountOnly.refl (s : State) : AccountOnly s s := ⟨rfl, rfl, rfl, rfl, rfl, rfl, rfl, Outside.refl s⟩

theorem AccountOnly.trans {s t u : State} (h : AccountOnly s t) (h' : AccountOnly t u) : AccountOnly s u :=
  ⟨h'.table.trans h.table, h'.deadlines.trans h.deadlines, h'.admission.trans h.admission,
    h'.tracking.trans h.tracking, h'.aspects.trans h.aspects, h'.modes.trans h.modes, h'.part.trans h.part,
    h.outside.trans h'.outside⟩

theorem AccountOnly.ticket {s t : State} (h : AccountOnly s t) (g : Handle) : t.ticket g = s.ticket g := by
  unfold State.ticket; rw [h.table]

theorem AccountOnly.dueOf {s t : State} (h : AccountOnly s t) (g : Handle) : t.dueOf g = s.dueOf g := by
  unfold State.dueOf; rw [h.deadlines]

theorem accountOnly_updSpan (s : State) (i : SpanNo) (f : SpanRec → SpanRec) : AccountOnly s (s.updSpan i f) :=
  ⟨rfl, rfl, rfl, rfl, rfl, rfl, rfl, outside_updSpan s i f⟩

/-- R35: evaluating the overloaded condition writes the overloaded field of one span alone. -/
theorem accountOnly_evalOverload (a : Option Approach) (h : Handle) (i : SpanNo) (s : State) :
    AccountOnly s (evalOverload a h i s).st := by
  refine ⟨?_, ?_, ?_, ?_, ?_, ?_, ?_, outside_evalOverload a h i s⟩ <;>
    (simp only [evalOverload]; split <;> simp)

theorem spanRec_evalOverload (a : Option Approach) (h : Handle) (i j : SpanNo) (s : State) :
    (evalOverload a h i s).st.spanRec j
      = if j = i then { s.spanRec j with overloaded := (s.spanRec i).isOver } else s.spanRec j := by
  simp only [evalOverload]
  split
  · have : ((s.updSpan i fun r => { r with overloaded := (s.spanRec i).isOver }).raise .overload a (some i) h).account
        = (s.updSpan i fun r => { r with overloaded := (s.spanRec i).isOver }).account := by simp
    exact (congrArg (fun v : Vector SpanRec 4 => v.get j) this).trans (State.spanRec_updSpan s i j _)
  · exact State.spanRec_updSpan s i j _

/-- One change for each span of a list without repetitions. -/
theorem accountOnly_foldl (is : List SpanNo) (F : State → SpanNo → State) (s : State)
    (h : ∀ s i, AccountOnly s (F s i)) : AccountOnly s (is.foldl F s) := by
  induction is generalizing s with
  | nil => exact AccountOnly.refl s
  | cons i is ih => exact (h s i).trans (ih _)

theorem accountOnly_each (is : List SpanNo) (F : SpanNo → State → Eff) (s : State)
    (h : ∀ i s, AccountOnly s (F i s).st) : AccountOnly s (Eff.each is F s).st :=
  Eff.each_st (AccountOnly s) (fun i _ s' hs => hs.trans (h i s')) (AccountOnly.refl s)

/-- What a fold over spans leaves of one span's record, seen through a field that a change of another span and what it
keeps do not touch. -/
theorem spanField_foldl {α : Type} (π : SpanRec → α) (is : List SpanNo) (F : State → SpanNo → State) (s : State)
    (h : ∀ s i j, π ((F s i).spanRec j) = π (s.spanRec j)) (j : SpanNo) :
    π ((is.foldl F s).spanRec j) = π (s.spanRec j) := by
  induction is generalizing s with
  | nil => rfl
  | cons i is ih => rw [List.foldl_cons, ih, h]

theorem spanField_each {α : Type} (π : SpanRec → α) (is : List SpanNo) (F : SpanNo → State → Eff) (s : State)
    (h : ∀ i s j, π ((F i s).st.spanRec j) = π (s.spanRec j)) (j : SpanNo) :
    π ((Eff.each is F s).st.spanRec j) = π (s.spanRec j) :=
  Eff.each_st (fun s' => π (s'.spanRec j) = π (s.spanRec j)) (fun i _ s' hs => (h i s' j).trans hs) rfl

/-- The same change on every span of a list without repetitions. -/
theorem spanRec_foldl_updSpan (is : List SpanNo) (f : SpanRec → SpanRec) (s : State) (hn : is.Nodup) (j : SpanNo) :
    (is.foldl (fun s i => s.updSpan i f) s).spanRec j = if j ∈ is then f (s.spanRec j) else s.spanRec j := by
  induction is generalizing s with
  | nil => rfl
  | cons i is ih =>
    rw [List.nodup_cons] at hn
    rw [List.foldl_cons, ih _ hn.2, State.spanRec_updSpan]
    by_cases hj : j = i
    · subst hj
      simp [hn.1]
    · simp [hj]

/-! ## The spans a ticket claims -/

theorem allSpans_nodup : allSpans.Nodup := by decide

theorem claimedSpans_nodup (t : Ticket) : (claimedSpans t).Nodup := by
  unfold claimedSpans
  refine List.Nodup.sublist List.filter_sublist ?_
  split
  · exact allSpans_nodup
  · decide

theorem mem_allSpans (i : SpanNo) : i ∈ allSpans := by revert i; decide

theorem mem_claimedSpans (t : Ticket) (i : SpanNo) : i ∈ claimedSpans t ↔ member t.claims i.val = true := by
  unfold claimedSpans
  rw [List.mem_filter]
  refine ⟨fun h => h.2, fun h => ⟨?_, h⟩⟩
  split
  · exact mem_allSpans i
  · exact List.mem_reverse.2 (mem_allSpans i)

theorem claimedSpans_all (t : Ticket) : ((claimedSpans t).filter fun i => allSpans.contains i) = claimedSpans t := by
  rw [List.filter_eq_self]
  intro i _
  exact List.contains_iff_mem.2 (mem_allSpans i)

/-! ## Releases (R32) -/

/-- What giving back every claim of a ticket does: its claims alone change on its record; each span it claimed counts
one claim fewer, and, unless the part is in CLEARING, its mass less. -/
structure Released (s : State) (t : Ticket) (e : Eff) : Prop where
  ticket : ∃ c, e.st.ticket t.handle = some { t with claims := c }
  others : ∀ g, g ≠ t.handle → e.st.ticket g = s.ticket g
  table : e.st.table = { s.table with tickets := e.st.table.tickets }
  deadlines : e.st.deadlines = s.deadlines
  admission : e.st.admission = s.admission
  tracking : e.st.tracking = s.tracking
  aspects : e.st.aspects = s.aspects
  modes : e.st.modes = s.modes
  part : e.st.part = s.part
  outside : Outside s e.st
  count : ∀ i, (e.st.spanRec i).count
    = if member t.claims i.val = true then (s.spanRec i).count - 1 else (s.spanRec i).count
  mass : s.part.state ≠ .clearing → ∀ i, (e.st.spanRec i).mass
    = if member t.claims i.val = true then (s.spanRec i).mass - t.mass else (s.spanRec i).mass
  arbiter : .arbiter ∈ e.out
  handles : e.st.table.tickets.map Ticket.handle = s.table.tickets.map Ticket.handle
  notLast : .noLiveTicket ∉ e.out

/-- A change of a record that keeps its handle keeps the handles of the table. -/
theorem handles_updTicket (s : State) (h : Handle) (f : Ticket → Ticket) (hf : ∀ t, (f t).handle = t.handle) :
    (s.updTicket h f).table.tickets.map Ticket.handle = s.table.tickets.map Ticket.handle := by
  unfold State.updTicket
  simp only [List.map_map]
  refine List.map_congr_left fun t _ => ?_
  simp only [Function.comp]
  split
  · exact hf t
  · rfl

/-- The one report of an evaluation of the overload condition. -/
theorem evalOverload_out {a : Option Approach} {h : Handle} {i : SpanNo} {s : State} {g : Signal}
    (hg : g ∈ (evalOverload a h i s).out) : g = .overloaded := by
  unfold evalOverload at hg
  dsimp only at hg
  split at hg
  · exact List.mem_singleton.1 hg
  · cases hg

theorem settleCountTarget_mass (r : SpanRec) : r.settleCountTarget.mass = r.mass := by
  unfold SpanRec.settleCountTarget
  split
  · rfl
  · split <;> rfl

theorem settleCountTarget_count (r : SpanRec) : r.settleCountTarget.count = r.count := by
  unfold SpanRec.settleCountTarget
  split
  · rfl
  · split <;> rfl

theorem settleMassTarget_count (r : SpanRec) (follow : Bool) : (r.settleMassTarget follow).count = r.count := by
  unfold SpanRec.settleMassTarget
  split
  · rfl
  · split
    · cases follow <;> rfl
    · rfl

theorem settleMassTarget_mass (r : SpanRec) : (r.settleMassTarget false).mass = r.mass := by
  unfold SpanRec.settleMassTarget
  split
  · rfl
  · split <;> rfl

theorem settleTargets_count (s : State) (i j : SpanNo) : ((s.settleTargets i).spanRec j).count = (s.spanRec j).count := by
  unfold State.settleTargets
  rw [State.spanRec_updSpan]
  split
  · rw [settleCountTarget_count, settleMassTarget_count]
  · rfl

theorem settleTargets_mass (s : State) (i j : SpanNo) (h : s.part.state ≠ .clearing) :
    ((s.settleTargets i).spanRec j).mass = (s.spanRec j).mass := by
  unfold State.settleTargets
  rw [State.spanRec_updSpan]
  split
  · have : s.presumes i = false := by simp [State.presumes, h]
    rw [settleCountTarget_mass, this, settleMassTarget_mass]
  · rfl

theorem foldl_settleTargets_mass (is : List SpanNo) (s : State) (j : SpanNo) (h : s.part.state ≠ .clearing) :
    ((is.foldl (fun s i => s.settleTargets i) s).spanRec j).mass = (s.spanRec j).mass := by
  induction is generalizing s with
  | nil => rfl
  | cons i is ih => rw [List.foldl_cons, ih _ (by exact h), settleTargets_mass _ _ _ h]

theorem release_count (r : SpanRec) (m : Nat) (forced : Bool) : (r.release m forced).count = r.count - 1 := by
  cases forced <;> rfl

theorem release_mass (r : SpanRec) (m : Nat) (forced : Bool) : (r.release m forced).mass = r.mass - m := by
  cases forced <;> rfl

/-- R32: giving back every claim. -/
theorem releaseClaims_released {s : State} {t : Ticket} (ht : s.ticket t.handle = some t) :
    Released s t (releaseClaims t.handle allSpans s) := by
  have hx : releaseClaims t.handle allSpans s =
      (Eff.each (claimedSpans t) (evalOverload none 0)
        ((claimedSpans t).foldl (fun s i => s.settleTargets i)
          (((claimedSpans t).foldl (fun s i => s.updSpan i fun r => r.release t.mass t.forced) s).updTicket t.handle
            fun u => { u with claims := u.claims &&& ~~~(claimSet (claimedSpans t)) }))).emit [.arbiter] := by
    unfold releaseClaims
    rw [ht]
    simp only [claimedSpans_all]
  rw [hx]
  generalize hs1 : (claimedSpans t).foldl (fun s i => s.updSpan i fun r => r.release t.mass t.forced) s = s1
  have a1 : AccountOnly s s1 := by
    rw [← hs1]; exact accountOnly_foldl _ _ _ fun s i => accountOnly_updSpan s i _
  generalize hs2 : (s1.updTicket t.handle fun u => { u with claims := u.claims &&& ~~~(claimSet (claimedSpans t)) }) = s2
  generalize hs3 : (claimedSpans t).foldl (fun s i => s.settleTargets i) s2 = s3
  have a3 : AccountOnly s2 s3 := by
    rw [← hs3]; exact accountOnly_foldl _ _ _ fun s i => accountOnly_updSpan s i _
  have a4 : AccountOnly s3 (Eff.each (claimedSpans t) (evalOverload none 0) s3).st :=
    accountOnly_each _ _ _ fun i s => accountOnly_evalOverload _ _ i s
  have a34 := a3.trans a4
  have r1 : ∀ i, s1.spanRec i
      = if i ∈ claimedSpans t then (s.spanRec i).release t.mass t.forced else s.spanRec i := by
    intro i; rw [← hs1]; exact spanRec_foldl_updSpan _ _ _ (claimedSpans_nodup t) i
  have r2 : ∀ i, s2.spanRec i = s1.spanRec i := by intro i; rw [← hs2]; rfl
  have t2 : ∀ g, s2.ticket g = if g = t.handle
      then (s.ticket g).map fun u => { u with claims := u.claims &&& ~~~(claimSet (claimedSpans t)) } else s.ticket g := by
    intro g
    rw [← hs2]
    refine (State.ticket_updTicket s1 t.handle g _ ?_).trans ?_
    · exact fun _ => rfl
    · rw [a1.ticket]
  refine ⟨?_, ?_, ?_, ?_, ?_, ?_, ?_, ?_, ?_, ?_, ?_, ?_, ?_, ?_, ?_⟩
  · refine ⟨t.claims &&& ~~~(claimSet (claimedSpans t)), ?_⟩
    rw [Eff.emit_st, a34.ticket, t2, if_pos rfl, ht]
    rfl
  · intro g hg
    rw [Eff.emit_st, a34.ticket, t2, if_neg hg]
  · have h2 : s2.table = { s.table with tickets := s2.table.tickets } := by
      rw [← hs2, ← a1.table]
      rfl
    rw [Eff.emit_st, a34.table]
    exact h2
  · rw [Eff.emit_st, a34.deadlines, ← hs2]; exact a1.deadlines
  · rw [Eff.emit_st, a34.admission, ← hs2]; exact a1.admission
  · rw [Eff.emit_st, a34.tracking, ← hs2]; exact a1.tracking
  · rw [Eff.emit_st, a34.aspects, ← hs2]; exact a1.aspects
  · rw [Eff.emit_st, a34.modes, ← hs2]; exact a1.modes
  · rw [Eff.emit_st, a34.part, ← hs2]; exact a1.part
  · have o2 : Outside s1 s2 := by rw [← hs2]; exact outside_updTicket ..
    exact (a1.outside.trans o2).trans a34.outside
  · intro i
    rw [Eff.emit_st, spanField_each SpanRec.count _ _ _ (fun i s j => by rw [spanRec_evalOverload]; split <;> rfl),
      ← hs3, spanField_foldl SpanRec.count _ _ _ (fun s i j => settleTargets_count s i j), r2, r1]
    simp only [mem_claimedSpans]
    split
    · exact release_count ..
    · rfl
  · intro hc i
    have hc2 : s2.part.state ≠ .clearing := by
      rw [← hs2]
      show s1.part.state ≠ .clearing
      rw [← hs1]
      have : ∀ (is : List SpanNo) (s : State),
          (is.foldl (fun s i => s.updSpan i fun r => r.release t.mass t.forced) s).part = s.part := by
        intro is
        induction is with
        | nil => intro s; rfl
        | cons i is ih => intro s; rw [List.foldl_cons, ih]; rfl
      rw [this]
      exact hc
    rw [Eff.emit_st, spanField_each SpanRec.mass _ _ _ (fun i s j => by rw [spanRec_evalOverload]; split <;> rfl),
      ← hs3, foldl_settleTargets_mass _ _ _ hc2, r2, r1]
    simp only [mem_claimedSpans]
    split
    · exact release_mass ..
    · rfl
  · simp
  · rw [Eff.emit_st, a34.table, ← hs2, ← a1.table]
    exact handles_updTicket s1 _ _ fun _ => rfl
  · rw [Eff.emit_out, List.mem_append]
    rintro (h | h)
    · have := Eff.each_out (fun g => g = .overloaded) (fun _ _ _ g hg => evalOverload_out hg) _ h
      cases this
    · simp at h

/-! ## Closings (R13 to R16) -/

/-- R16: an offered summary changes the close queue or the lost count, and what raising CLOSE_LOST changes. -/
theorem offerSummary_table (s : State) (x : Summary) : (s.offerSummary x).table
    = if s.table.closeQueue.length < Config.closeQueueSize
      then { s.table with closeQueue := s.table.closeQueue ++ [x] }
      else { s.table with closeLost := countUp s.table.closeLost } := by
  unfold State.offerSummary
  split
  · rfl
  · simp [State.updTable]

theorem offerSummary_deadlines (s : State) (x : Summary) : (s.offerSummary x).deadlines = s.deadlines := by
  unfold State.offerSummary
  split
  · rfl
  · simp [State.updTable]

theorem offerSummary_account (s : State) (x : Summary) : (s.offerSummary x).account = s.account := by
  unfold State.offerSummary
  split
  · rfl
  · simp [State.updTable]

theorem offerSummary_tracking (s : State) (x : Summary) : (s.offerSummary x).tracking = s.tracking := by
  unfold State.offerSummary
  split
  · rfl
  · simp [State.updTable]

theorem offerSummary_admission (s : State) (x : Summary) : (s.offerSummary x).admission = s.admission := by
  unfold State.offerSummary
  split
  · rfl
  · simp [State.updTable]

theorem leaveSpan_spanRec (s : State) (t : Ticket) (i : SpanNo) :
    ((s.leaveSpan t).spanRec i).count = (s.spanRec i).count ∧ ((s.leaveSpan t).spanRec i).mass = (s.spanRec i).mass := by
  unfold State.leaveSpan
  split
  · exact ⟨rfl, rfl⟩
  · rw [State.spanRec_updSpan]
    split <;> exact ⟨rfl, rfl⟩

theorem leaveSpan_table (s : State) (t : Ticket) : (s.leaveSpan t).table = s.table := by
  unfold State.leaveSpan; split <;> rfl

theorem leaveSpan_tracking (s : State) (t : Ticket) : (s.leaveSpan t).tracking = s.tracking := by
  unfold State.leaveSpan; split <;> rfl

theorem leaveSpan_admission (s : State) (t : Ticket) : (s.leaveSpan t).admission = s.admission := by
  unfold State.leaveSpan; split <;> rfl

theorem leaveSpan_deadlines (s : State) (t : Ticket) : (s.leaveSpan t).deadlines = s.deadlines := by
  unfold State.leaveSpan; split <;> rfl

theorem setHold_fields (s : State) (a : Approach) (q : HoldQueue) :
    s.setHold a q = { s with admission := (s.setHold a q).admission } := by
  unfold State.setHold
  dsimp only
  split <;> rfl

theorem leaveAdmission_fields (s : State) (t : Ticket) :
    s.leaveAdmission t = { s with admission := (s.leaveAdmission t).admission } := by
  unfold State.leaveAdmission
  dsimp only
  rw [setHold_fields]

theorem leaveAdmission_table (s : State) (t : Ticket) : (s.leaveAdmission t).table = s.table := by
  rw [leaveAdmission_fields]

theorem leaveAdmission_deadlines (s : State) (t : Ticket) : (s.leaveAdmission t).deadlines = s.deadlines := by
  rw [leaveAdmission_fields]

theorem leaveAdmission_account (s : State) (t : Ticket) : (s.leaveAdmission t).account = s.account := by
  rw [leaveAdmission_fields]

/-- What a closing leaves of the admission unit depends on nothing else. -/
theorem leaveAdmission_admission {s s' : State} (t : Ticket) (h : s.admission = s'.admission) :
    (s.leaveAdmission t).admission = (s'.leaveAdmission t).admission := by
  unfold State.leaveAdmission State.setHold State.setSkip State.hold
  dsimp only
  rw [h]
  split <;> rfl

/-- R13: the hold queue of a closing ticket's approach without the ticket. -/
theorem leaveAdmission_hold (s : State) (t : Ticket) : (s.leaveAdmission t).hold t.approach
    = { bay := (s.hold t.approach).bay.filter fun g => g != t.handle,
        nearing := (s.hold t.approach).nearing.filter fun g => g != t.handle } :=
  State.hold_setHold_self s t.approach _

theorem skipFollowsHead_leaveAdmission (s : State) (t : Ticket) :
    SkipFollowsHead s (s.leaveAdmission t) t.approach := skipFollowsHead_setHold s t.approach _

/-- Nothing changes but what a closing changes: the links, the deadline list, the table, the account, the admission unit,
the places and the event summary. -/
abbrev ClosingOnly (s t : State) : Prop :=
  t = { s with
    links := t.links, deadlines := t.deadlines, table := t.table, account := t.account, admission := t.admission,
    tracking := t.tracking, centre := { s.centre with summary := t.centre.summary } }

theorem ClosingOnly.trans {s t u : State} (h : ClosingOnly s t) (h' : ClosingOnly t u) : ClosingOnly s u := by
  unfold ClosingOnly at *
  rw [h', h]

theorem Outside.closingOnly {s t : State} (h : Outside s t) (part : t.part = s.part) (aspects : t.aspects = s.aspects)
    (modes : t.modes = s.modes) : ClosingOnly s t := by
  have hprofile := h.profile
  have hdirectory := h.directory
  have hlink := h.centreLink
  have hlines := h.lines
  have hpending := h.pending
  have hcentre := h.centre
  unfold ClosingOnly
  cases t
  dsimp only at *
  rw [part, hprofile, hdirectory, hlink, hlines, aspects, modes, hpending, ← hcentre]

theorem closingOnly_leaveSpan (s : State) (t : Ticket) : ClosingOnly s (s.leaveSpan t) := by
  unfold State.leaveSpan
  split <;> rfl

theorem closingOnly_leaveAdmission (s : State) (t : Ticket) : ClosingOnly s (s.leaveAdmission t) := by
  unfold ClosingOnly
  rw [leaveAdmission_fields]

theorem closingOnly_offerSummary (s : State) (x : Summary) : ClosingOnly s (s.offerSummary x) := by
  unfold State.offerSummary
  split
  · rfl
  · exact ((outside_raise ..).trans (outside_updTable ..)).closingOnly (by simp) (by simp) (by simp)

/-- R13, R81: the admission unit without a closing ticket. -/
theorem leaveAdmission_fields_admission (s : State) (t : Ticket) :
    (s.leaveAdmission t).admission = { s.admission with
      hold := s.admission.hold.set t.approach
        { bay := (s.hold t.approach).bay.filter fun g => g != t.handle,
          nearing := (s.hold t.approach).nearing.filter fun g => g != t.handle },
      skip := (s.leaveAdmission t).admission.skip,
      escortSlot := if s.admission.escortSlot = some t.handle then none else s.admission.escortSlot } := by
  unfold State.leaveAdmission State.setHold State.setSkip
  dsimp only
  split <;> rfl

/-- What the release inside a closing does, also for a ticket without claims. -/
theorem closing_release {s : State} {t : Ticket} (ht : s.ticket t.handle = some t) (e : Eff)
    (he : e = if t.claims = 0 then Eff.of s else releaseClaims t.handle allSpans s) :
    (∀ g, g ≠ t.handle → e.st.ticket g = s.ticket g)
      ∧ e.st.table = { s.table with tickets := e.st.table.tickets } ∧ e.st.deadlines = s.deadlines
      ∧ (∀ i, (e.st.spanRec i).count
          = if member t.claims i.val = true then (s.spanRec i).count - 1 else (s.spanRec i).count)
      ∧ (s.part.state ≠ .clearing → ∀ i, (e.st.spanRec i).mass
          = if member t.claims i.val = true then (s.spanRec i).mass - t.mass else (s.spanRec i).mass)
      ∧ (t.claims ≠ 0 → .arbiter ∈ e.out)
      ∧ e.st.admission = s.admission ∧ e.st.tracking = s.tracking
      ∧ e.st.table.tickets.map Ticket.handle = s.table.tickets.map Ticket.handle ∧ .noLiveTicket ∉ e.out
      ∧ ClosingOnly s e.st := by
  subst he
  split
  · next h =>
    have hm : ∀ i : SpanNo, member t.claims i.val = false := by intro i; rw [h]; simp [member]
    refine ⟨fun _ _ => rfl, rfl, rfl, fun i => ?_, fun _ i => ?_, fun h' => absurd h h', rfl, rfl, rfl,
      List.not_mem_nil, rfl⟩ <;>
      (rw [hm i]; rfl)
  · have r := releaseClaims_released ht
    exact ⟨r.others, r.table, r.deadlines, r.count, r.mass, fun _ => r.arbiter, r.admission, r.tracking, r.handles,
      r.notLast, r.outside.closingOnly r.part r.aspects r.modes⟩

/-- R13: what a closing leaves. -/
theorem closeTicket_closes {s : State} {t : Ticket} (outcome : CloseOutcome) (ht : s.ticket t.handle = some t) :
    Closes s t outcome (closeTicket t.handle outcome s) := by
  have hx : closeTicket t.handle outcome s = (closeSteps t outcome s).emit
      ((if t.origin = .escort then [.arbiter] else []) ++ [.poolReport]
        ++ (if (closeSteps t outcome s).st.table.tickets.isEmpty = true then [.noLiveTicket] else [])) := by
    unfold closeTicket
    rw [ht]
  generalize hr : (if t.claims = 0 then Eff.of (s.dropDue t.handle)
    else releaseClaims t.handle allSpans (s.dropDue t.handle)) = r
  obtain ⟨h1, h2, h3, h4, h5, h6, h7, h8, h9, h10, h11⟩ := closing_release (s := s.dropDue t.handle) (t := t) ht r hr.symm
  generalize hu : ((r.st.leaveSpan t).leaveAdmission t).updPlaces t.approach (fun p => p.without t.handle) = u
  have hst : (closeSteps t outcome s).st = (u.removeTicket t).offerSummary (t.summary outcome s.now) := by
    rw [← hu, ← hr]
    rfl
  have hout : (closeSteps t outcome s).out = r.out ++ (unplace t ((r.st.leaveSpan t).leaveAdmission t)).out := by
    rw [← hr]
    rfl
  have hut : u.table = r.st.table := by
    rw [← hu]
    exact (leaveAdmission_table _ t).trans (leaveSpan_table _ t)
  have hud : u.deadlines = r.st.deadlines := by
    rw [← hu]
    exact (leaveAdmission_deadlines _ t).trans (leaveSpan_deadlines _ t)
  have hus : ∀ i, u.spanRec i = (r.st.leaveSpan t).spanRec i := by
    intro i
    rw [← hu]
    show ((r.st.leaveSpan t).leaveAdmission t).account.get i = _
    rw [leaveAdmission_account]
    rfl
  have hq : (u.removeTicket t).table.closeQueue = s.table.closeQueue := by
    show u.table.closeQueue = _
    rw [hut, h2]
    rfl
  have hl : (u.removeTicket t).table.closeLost = s.table.closeLost := by
    show u.table.closeLost = _
    rw [hut, h2]
    rfl
  have htk : ∀ g, (closeSteps t outcome s).st.ticket g = (u.removeTicket t).ticket g := by
    intro g
    unfold State.ticket
    rw [hst, offerSummary_table]
    split <;> rfl
  have hsp : ∀ i, (closeSteps t outcome s).st.spanRec i = (r.st.leaveSpan t).spanRec i := by
    intro i
    unfold State.spanRec
    rw [hst, offerSummary_account]
    exact hus i
  have hdu : ∀ g, (closeSteps t outcome s).st.dueOf g = (s.dropDue t.handle).dueOf g := by
    intro g
    unfold State.dueOf
    rw [hst, offerSummary_deadlines]
    show List.find? _ u.deadlines = _
    rw [hud, h3]
  have hrt : ((r.st.leaveSpan t).leaveAdmission t).tracking = s.tracking := by
    rw [leaveAdmission_fields]
    show (r.st.leaveSpan t).tracking = _
    rw [leaveSpan_tracking, h8]
    rfl
  have htr : (closeSteps t outcome s).st.tracking = s.tracking.set t.approach ((s.places t.approach).left t.handle) := by
    rw [hst, offerSummary_tracking]
    show u.tracking = _
    rw [← hu]
    show ((r.st.leaveSpan t).leaveAdmission t).tracking.set t.approach
      ((((r.st.leaveSpan t).leaveAdmission t).tracking.get t.approach).without t.handle) = _
    rw [hrt]
    rfl
  have had : (closeSteps t outcome s).st.admission = (s.leaveAdmission t).admission := by
    rw [hst, offerSummary_admission]
    show u.admission = _
    rw [← hu]
    show ((r.st.leaveSpan t).leaveAdmission t).admission = _
    refine leaveAdmission_admission t ?_
    rw [leaveSpan_admission, h7]
    rfl
  have hlive : (closeSteps t outcome s).st.table.tickets.isEmpty = true
      ↔ ∀ v ∈ s.table.tickets, v.handle = t.handle := by
    have : (closeSteps t outcome s).st.table.tickets = u.table.tickets.filter fun v => v.handle != t.handle := by
      rw [hst, offerSummary_table]
      split <;> rfl
    rw [this, hut, List.isEmpty_iff, List.filter_eq_nil_iff]
    have hm : ∀ g, g ∈ r.st.table.tickets.map Ticket.handle ↔ g ∈ s.table.tickets.map Ticket.handle := by
      intro g; rw [h9]; rfl
    refine ⟨fun h v hv => ?_, fun h v hv => ?_⟩
    · obtain ⟨w, hw, e⟩ := List.mem_map.1 ((hm v.handle).2 (List.mem_map_of_mem hv))
      have := h w hw
      rw [← e]
      simpa using this
    · obtain ⟨w, hw, e⟩ := List.mem_map.1 ((hm v.handle).1 (List.mem_map_of_mem hv))
      rw [← e]
      simpa using h w hw
  have hco : ClosingOnly s (closeSteps t outcome s).st := by
    have hv : ClosingOnly s u := by
      rw [← hu]
      exact (ClosingOnly.trans (ClosingOnly.trans (ClosingOnly.trans rfl h11) (closingOnly_leaveSpan r.st t))
        (closingOnly_leaveAdmission _ t)).trans rfl
    rw [hst]
    exact (hv.trans rfl).trans (closingOnly_offerSummary ..)
  rw [hx]
  refine ⟨?_, ?_, ?_, ?_, ?_, ?_, ?_, ?_, ?_, ?_, ?_, ?_, ?_, ?_, ?_, ?_, ?_, ?_⟩
  · rw [Eff.emit_st, htk, State.ticket_removeTicket, if_pos rfl]
  · rw [Eff.emit_st, hdu, State.dueOf_dropDue, if_pos rfl]
  · intro hlen
    rw [Eff.emit_st, hst, offerSummary_table, hq, if_pos hlen]
    exact ⟨rfl, hl⟩
  · intro hlen
    rw [Eff.emit_st, hst, offerSummary_table, hq, if_neg hlen]
    refine ⟨hq, congrArg countUp hl, u.removeTicket t, ?_⟩
    unfold State.offerSummary
    rw [if_neg (by rw [hq]; exact hlen)]
    simp [Ticket.summary, State.updTable]
  · have : (u.removeTicket t).table.freeCells = s.table.freeCells + cellsFor t.axles.length := by
      show u.table.freeCells + _ = _
      rw [hut, h2]
      rfl
    rw [Eff.emit_st, hst, offerSummary_table]
    split <;> exact this
  · intro i
    rw [Eff.emit_st, hsp, (leaveSpan_spanRec _ t i).1]
    exact h4 i
  · intro hc i
    rw [Eff.emit_st, hsp, (leaveSpan_spanRec _ t i).2]
    exact h5 hc i
  · intro g hg
    refine ⟨?_, ?_⟩
    · rw [Eff.emit_st, htk, State.ticket_removeTicket, if_neg hg]
      unfold State.ticket
      rw [hut]
      exact h1 g hg
    · rw [Eff.emit_st, hdu, State.dueOf_dropDue, if_neg hg]
  · simp
  · intro hc
    simp [hout, h6 hc]
  · intro ho
    simp [ho]
  · rw [← hlive, Eff.emit_out, hout]
    refine ⟨fun h => ?_, fun h => ?_⟩
    · rcases List.mem_append.1 h with h | h
      · rcases List.mem_append.1 h with h | h
        · exact absurd h h10
        · exact absurd h (moveSignals_notLast t.approach _ _)
      · rcases List.mem_append.1 h with h | h
        · rcases List.mem_append.1 h with h | h
          · split at h
            · cases List.mem_singleton.1 h
            · cases h
          · cases List.mem_singleton.1 h
        · split at h
          · assumption
          · cases h
    · rw [if_pos h]
      simp
  · rw [Eff.emit_st, htr]
  · refine reportsTheMove_of (now := u) ?_ ?_
    · show (closeSteps t outcome s).st.tracking.get _ = u.tracking.get _
      rw [hst, offerSummary_tracking]
      rfl
    · intro g hg
      rw [Eff.emit_out, hout]
      refine List.mem_append_left _ (List.mem_append_right _ ?_)
      show g ∈ moveSignals t.approach ((r.st.leaveSpan t).leaveAdmission t) _
      rw [hu]
      have : ∀ v : State, v.tracking = s.tracking → moveSignals t.approach v u = moveSignals t.approach s u := by
        intro v hv
        unfold moveSignals State.laneHead State.laneList State.places
        rw [hv]
      rw [this _ hrt]
      exact hg
  · rw [Eff.emit_st, had]
    exact leaveAdmission_fields_admission s t
  · rw [Eff.emit_st]
    exact (skipFollowsHead_leaveAdmission s t).of_admission rfl had
  · have kept : (u.removeTicket t).table
        = { s.table with tickets := (u.removeTicket t).table.tickets, freeCells := (u.removeTicket t).table.freeCells } := by
      have e : u.table = { s.table with tickets := u.table.tickets } := by
        rw [hut]
        exact h2
      let refill (table : Table) : Table := { table with
        tickets := (u.removeTicket t).table.tickets, freeCells := (u.removeTicket t).table.freeCells }
      have kept := congrArg refill e
      exact kept
    rw [Eff.emit_st, hst, offerSummary_table]
    split <;> (rw [kept])
  · exact hco

end Sys2Proof.Machine
end

