-- ==== Sys2Proof/Laws/Frames.lean ====
section
/-! SUPPORT. What the shared operations of a frame's coming do: the end of its reception, the answer, the hearing. -/

namespace Sys2Proof.Machine

/-- A command that comes while the part is not held in reset acts. -/
theorem awake_of {s : State} (h : s.inReset = false) (f : State → State) : awake s f = .next (f s) := by
  unfold awake; rw [h]; rfl

/-- A command that comes while the part is held in reset does not act. -/
theorem awake_held {s : State} (h : s.inReset = true) (f : State → State) : awake s f = .next s := by
  unfold awake; rw [if_pos h]

/-- The end of a reception leaves every other part of the state alone. -/
theorem State.ended_eq (s : State) (k : LinkNo) : s.ended k = s.updLink k LinkRec.endReception := rfl

@[simp] theorem State.ended_part (s : State) (k : LinkNo) : (s.ended k).part = s.part := rfl
@[simp] theorem State.ended_profile (s : State) (k : LinkNo) : (s.ended k).profile = s.profile := rfl
@[simp] theorem State.ended_directory (s : State) (k : LinkNo) : (s.ended k).directory = s.directory := rfl
@[simp] theorem State.ended_centreLink (s : State) (k : LinkNo) : (s.ended k).centreLink = s.centreLink := rfl
@[simp] theorem State.ended_lines (s : State) (k : LinkNo) : (s.ended k).lines = s.lines := rfl
@[simp] theorem State.ended_deadlines (s : State) (k : LinkNo) : (s.ended k).deadlines = s.deadlines := rfl
@[simp] theorem State.ended_table (s : State) (k : LinkNo) : (s.ended k).table = s.table := rfl
@[simp] theorem State.ended_account (s : State) (k : LinkNo) : (s.ended k).account = s.account := rfl
@[simp] theorem State.ended_admission (s : State) (k : LinkNo) : (s.ended k).admission = s.admission := rfl
@[simp] theorem State.ended_tracking (s : State) (k : LinkNo) : (s.ended k).tracking = s.tracking := rfl
@[simp] theorem State.ended_aspects (s : State) (k : LinkNo) : (s.ended k).aspects = s.aspects := rfl
@[simp] theorem State.ended_modes (s : State) (k : LinkNo) : (s.ended k).modes = s.modes := rfl
@[simp] theorem State.ended_centre (s : State) (k : LinkNo) : (s.ended k).centre = s.centre := rfl
@[simp] theorem State.ended_pending (s : State) (k : LinkNo) : (s.ended k).pending = s.pending := rfl
@[simp] theorem State.ended_entry (s : State) (k j : LinkNo) (p : PosNo) : (s.ended k).entry j p = s.entry j p := rfl

/-- The end of a reception on a link leaves its chain alone. -/
@[simp] theorem State.ended_chain (s : State) (k j : LinkNo) : ((s.ended k).link j).chain = (s.link j).chain := by
  simp only [State.ended, State.link, upd_get]; split <;> simp_all

/-- The end of a reception leaves the transmit queues alone. -/
@[simp] theorem State.ended_queue (s : State) (k j : LinkNo) : ((s.ended k).link j).queue = (s.link j).queue := by
  simp only [State.ended, State.link, upd_get]; split <;> simp_all

@[simp] theorem State.ended_hasRoom (s : State) (k j : LinkNo) : (s.ended k).hasRoom j = s.hasRoom j := by
  simp only [State.hasRoom, State.ended_queue]

/-- R139 to R141, R152: a valid frame on a link that is not SENDING is dealt with, and is then a hearing. -/
theorem State.receive_of {s : State} {k : LinkNo} {f : Frame} {p : PosNo} (h : Arrives s k f p)
    (save : PosNo → Option RecordId) (deal : PosNo → State → State) :
    s.receive k f save deal = (deal p (s.ended k)).hear k p (save p) := by
  obtain ⟨-, hs, hl, hp, hc⟩ := h
  have hd : s.deaf k = false := by simp [State.deaf, hs]
  have hv : positionOf f.hop = some p := hp
  have hh : f.hop.toNat = p.val + 1 := by
    simp only [positionOf, countedFrom1, below] at hv
    split at hv
    · cases hv
    · split at hv
      · have := congrArg (Option.map Fin.val) hv
        simp at this; omega
      · cases hv
  have hf : frameCheck f ((s.ended k).link k).chain = none := by
    rw [State.ended_chain]
    unfold frameCheck
    rw [if_neg (by omega), if_neg (by omega)]
  unfold State.receive
  rw [hd, ← State.ended_eq]
  simp only [Bool.false_eq_true, if_false, hf, hp]

/-- R143: an answer joins the queue of its link, or is dropped with LINK_ERROR. -/
theorem State.answer_ended (s : State) (k : LinkNo) (f : Frame) (bytes : List Byte) :
    (s.ended k).answer k f bytes = s.withAnswer k f bytes := by
  unfold State.answer State.offer State.withAnswer
  rw [State.ended_hasRoom]
  split
  · simp [State.enqueue, State.updLink, State.ended, upd, txFrame, TxKind.code, vector_get]
  · rfl

/-- R143: an answer for which there is room. -/
theorem State.withAnswer_of_room {s : State} {k : LinkNo} (f : Frame) (bytes : List Byte) (h : s.hasRoom k = true) :
    s.withAnswer k f bytes = { s with links := upd s.links k fun r =>
      { r with lineState := .listening, rxBytes := [], rxFailed := none,
               queue := r.queue ++
                 [{ hop := f.hop, code := 0x03, tag := f.tag, payload := bytes, resetAnswer := false }] } } :=
  if_pos h

/-- R143: an answer at a full queue. -/
theorem State.withAnswer_of_full {s : State} {k : LinkNo} (f : Frame) (bytes : List Byte) (h : s.hasRoom k = false) :
    s.withAnswer k f bytes = (s.ended k).raise .linkError none none 0 :=
  if_neg (by rw [h]; exact Bool.false_ne_true)

/-- R143: LINK_ERROR that is raised while the centre's link is full sets its flag alone. -/
theorem State.raise_linkError_of_full {s : State} (h : s.hasRoom s.centreLink = false) :
    s.raise .linkError none none 0 = s.setEvent .linkError := by
  have twice : (s.setEvent .linkError).setEvent .linkError = s.setEvent .linkError := by
    unfold State.setEvent withMember
    simp only [BitVec.or_assoc, BitVec.or_self]
  have full : (s.setEvent .linkError).hasRoom (s.setEvent .linkError).centreLink = false := h
  unfold State.raise
  dsimp only
  rw [full]
  split
  · rfl
  · exact (if_neg Bool.false_ne_true).trans twice

/-- R152: the hearing of the centre renews its entry, and nothing follows from it. -/
theorem State.hear_centre {s : State} {k : LinkNo} {p : PosNo} {l : Liveness} (h : s.entry k p = .bound .centre l)
    (save : Option RecordId) : s.hear k p save = s.heardFrom k p .centre := by
  unfold State.hear
  rw [h]
  cases l <;> rfl

/-- R152: a request of the centre is dealt with, and is then a hearing. -/
theorem centreRequest_of {s : State} {f : Frame} {l : Liveness} (h : CentreAsks s f l) (take : State → State) :
    centreRequest s.centreLink f take s
      = .next ((take (s.ended s.centreLink)).hear s.centreLink 0 none) := by
  unfold centreRequest
  rw [awake_of h.1.1, State.receive_of h.1]
  simp only [State.ended_entry, h.2]

/-- Writing an entry twice is writing it once. -/
theorem State.setEntry_setEntry (s : State) (k : LinkNo) (p : PosNo) (e e' : Entry) :
    (s.setEntry k p e).setEntry k p e' = s.setEntry k p e' := by
  simp [State.setEntry, upd, vector_get]

/-- An entry that has been written reads as written. -/
@[simp] theorem State.entry_setEntry_self (s : State) (k : LinkNo) (p : PosNo) (e : Entry) :
    (s.setEntry k p e).entry k p = e := by
  simp [State.setEntry, State.entry]

/-- R143, R154: an answer on the centre's link and a change of the centre's entry are taken in either order. -/
theorem State.answer_setEntry (s : State) (f : Frame) (bytes : List Byte) (p : PosNo) (e : Entry) :
    (s.setEntry s.centreLink p e).answer s.centreLink f bytes
      = (s.answer s.centreLink f bytes).setEntry s.centreLink p e := by
  have room : (s.setEntry s.centreLink p e).hasRoom s.centreLink = s.hasRoom s.centreLink := rfl
  unfold State.answer State.offer
  rw [room]
  split
  · rfl
  · next h =>
    have full : s.hasRoom s.centreLink = false := Bool.eq_false_iff.2 h
    rw [State.raise_linkError_of_full full,
      State.raise_linkError_of_full (s := s.setEntry s.centreLink p e) full]
    rfl

/-- R154: a reply to the centre and its hearing leave the answer queued, or dropped, and the centre heard. -/
theorem State.reply_heard {s : State} {f : Frame} {l : Liveness} (h : CentreAsks s f l) (bytes : List Byte) :
    ((s.ended s.centreLink).reply s.centreLink f bytes).hear s.centreLink 0 none = s.answeredCentre f bytes := by
  have hp : positionOf f.hop = some 0 := h.1.2.2.2.1
  have he : (s.ended s.centreLink).reply s.centreLink f bytes
      = (s.withAnswer s.centreLink f bytes).setEntry s.centreLink 0 (s.renewed .centre) := by
    unfold State.reply State.heardCentre
    rw [hp]
    exact (State.answer_setEntry (s.ended s.centreLink) f bytes 0 _).trans (by rw [State.ended_centreLink, State.answer_ended]; rfl)
  rw [he]
  unfold State.renewed
  rw [State.hear_centre (State.entry_setEntry_self ..)]
  unfold State.answeredCentre State.heardFrom
  rw [State.setEntry_setEntry]
  rfl

end Sys2Proof.Machine
end

