-- ==== Sys2Proof/Laws/Modes.lean ====
section
/-! SUPPORT. What the derivation of lanes (R107) and the changes of cause sets (R123, R131, R132, R134) do, said once. -/

namespace Sys2Proof.Machine

/-! ## What a derivation leaves alone -/

/-- A derivation of wanted aspects touches the aspect records alone: the attempts it leads to are reports. -/
abbrev DerivedOnly (s t : State) : Prop := t = { s with aspects := t.aspects }

theorem DerivedOnly.trans {s t u : State} (h : DerivedOnly s t) (k : DerivedOnly t u) : DerivedOnly s u := by
  unfold DerivedOnly at *
  rw [k, h]

theorem DerivedOnly.mode {s t : State} (h : DerivedOnly s t) (a : Approach) : t.mode a = s.mode a := by rw [h]; rfl
theorem DerivedOnly.profile {s t : State} (h : DerivedOnly s t) : t.profile = s.profile := by rw [h]

theorem derivedOnly_wantLane (a : Approach) (l : LaneNo) (x : Aspect) (s : State) : DerivedOnly s (wantLane a l x s).st := by
  unfold wantLane
  dsimp only
  split
  · rfl
  · split <;> rfl

theorem derivedOnly_deriveLane (a : Approach) (l : LaneNo) (s : State) : DerivedOnly s (deriveLane a l s).st := by
  unfold deriveLane
  repeat' split
  all_goals first | rfl | exact derivedOnly_wantLane ..

/-- R107: the derivation of an approach's lanes. -/
theorem derivedOnly_deriveLanes (a : Approach) (s : State) : DerivedOnly s (deriveLanes a s).st :=
  Eff.each_st (DerivedOnly s) (fun _ _ _ h => h.trans (derivedOnly_deriveLane ..)) rfl

/-! ## Other lanes -/

theorem lane_setLane_of_ne (s : State) (a : Approach) {l m : LaneNo} (r : AspectRec Aspect) (h : l ≠ m) :
    (s.setLane a m r).lane a l = s.lane a l := by
  cases a <;> exact (upd_get _ m l _).trans (if_neg h)

theorem lane_wantLane_of_ne (a : Approach) {l m : LaneNo} (x : Aspect) (s : State) (h : l ≠ m) :
    (wantLane a m x s).st.lane a l = s.lane a l := by
  unfold wantLane
  dsimp only
  split
  · rfl
  · split
    all_goals exact lane_setLane_of_ne _ _ _ h

/-- R107: on an approach that is not OPEN the derivation of a lane in use wants DIVERT of it, and leaves the wanted
aspect of every other lane alone. -/
theorem deriveLane_diverts (a : Approach) (m l : LaneNo) (s : State) (hc : (s.mode a).causes ≠ 0)
    (hl : l.val < s.profile.lanes.get a) (h : l = m ∨ (s.lane a l).wanted = .divert) :
    ((deriveLane a m s).st.lane a l).wanted = .divert := by
  have shut : s.isOpen a = false := decide_eq_false hc
  unfold deriveLane
  rw [if_pos shut]
  split
  · next unused =>
    refine h.resolve_left fun e => ?_
    rw [← e, show s.laneInUse a l = true from decide_eq_true hl] at unused
    cases unused
  · by_cases e : l = m
    · rw [e]
      exact wantLane_wanted ..
    · rw [lane_wantLane_of_ne a _ s e]
      exact h.resolve_left e

/-- R107, R131: once an approach that is not OPEN has been derived, every lane in use wants DIVERT. -/
theorem deriveLanes_divert (a : Approach) (s : State) (hc : (s.mode a).causes ≠ 0) (l : LaneNo)
    (hl : l.val < s.profile.lanes.get a) : ((deriveLanes a s).st.lane a l).wanted = .divert := by
  have d0 := derivedOnly_deriveLane a 0 s
  have d1 := d0.trans (derivedOnly_deriveLane a 1 _)
  have lanes : ∀ l : LaneNo, l = 0 ∨ l = 1 ∨ l = 2 := by decide
  have step : ∀ (m : LaneNo) (t : State), DerivedOnly s t → (l = m ∨ (t.lane a l).wanted = .divert) →
      ((deriveLane a m t).st.lane a l).wanted = .divert := fun m t d h =>
    deriveLane_diverts a m l t (by rw [d.mode]; exact hc) (by rw [d.profile]; exact hl) h
  show ((deriveLane a 2 (deriveLane a 1 (deriveLane a 0 s).st).st).st.lane a l).wanted = .divert
  rcases lanes l with h | h | h
  · exact step 2 _ d1 (.inr (step 1 _ d0 (.inr (step 0 s rfl (.inl h)))))
  · exact step 2 _ d1 (.inr (step 1 _ d0 (.inl h)))
  · exact step 2 _ d1 (.inl h)

/-! ## DIVERT_ALL and OPEN -/

theorem Ticket.countermanded_eq (t : Ticket) : t.countermanded = t.turnedAway := by
  unfold Ticket.countermanded Ticket.turnedAway
  cases h : t.decision with
  | none => simp
  | some d => cases d <;> simp

/-- R131: what an approach's entry into DIVERT_ALL does. -/
theorem enterDivertAll_eq (a : Approach) (s : State) : enterDivertAll a s = entersDivertAll a s := by
  unfold enterDivertAll entersDivertAll
  show Eff.each [0, 1, 2] _ _ = _
  congr 1
  unfold State.countermand State.setHold State.restricted
  simp only [Ticket.countermanded_eq]
  by_cases h : ((s.hold a).bay ++ (s.hold a).nearing).head? = (s.hold a).bay.head?
  · rw [if_pos (by simpa [HoldQueue.head, State.hold, State.updMode] using h), if_pos h]
    rfl
  · rw [if_neg (by simpa [HoldQueue.head, State.hold, State.updMode] using h), if_neg h]
    rfl

/-- R132: what an approach's becoming OPEN does. -/
theorem openApproach_eq (a : Approach) (s : State) : openApproach a s = becomesOpen a s := rfl

/-! ## Causes -/

theorem Cause.index_lt (c : Cause) : c.index < 8 := by cases c <;> decide

/-- R123: a cause that joins the set of an approach, with the event of its name where it has one. -/
theorem putCause_eq (a : Approach) (c : Cause) (s : State) : s.putCause a c =
    (let joined : State := { s with modes := s.modes.set a { s.mode a with
      causes := (s.mode a).causes ||| BitVec.twoPow 8 c.index } }
    match c with
    | .weighLoss => joined.raise .weighLoss (some a) none 0
    | .weighSilent => joined.raise .weighSilent (some a) none 0
    | .gantryFault => joined.raise .gantryFault (some a) none 0
    | .detectorFault => joined.raise .detectorFault (some a) none 0
    | .partState | .centreOrder | .poolExhausted | .overload => joined) := by
  cases c <;> rfl

theorem causes_or_held {x : BitVec 8} {n : Nat} (h : x.getLsbD n = true) : x ||| BitVec.twoPow 8 n = x := by
  apply BitVec.eq_of_getLsbD_eq
  intro i _
  rw [BitVec.getLsbD_or, BitVec.getLsbD_twoPow]
  by_cases e : n = i
  · rw [← e, h]
    rfl
  · simp [e]

/-- R123: the addition of a cause without an event of its own, to a set that may hold it. -/
theorem joinCause_eq (s : State) (a : Approach) (c : Cause) (h : c.event = none) :
    (if s.holds a c = true then s else s.putCause a c)
      = { s with modes := s.modes.set a { s.mode a with causes := (s.mode a).causes ||| BitVec.twoPow 8 c.index } } := by
  split
  · next held =>
    rw [causes_or_held (show (s.mode a).causes.getLsbD c.index = true from held)]
    cases a <;> rfl
  · unfold State.putCause
    rw [h]
    rfl

/-- R134: what the addition of a shared cause on both approaches does. -/
theorem addCauseBoth_eq (c : Cause) (s : State) (h : c.event = none) : addCauseBoth c s = addedOnBoth c s := by
  have entered : ∀ a u, (if s.isOpen a = true then enterDivertAll a u else Eff.of u)
      = (if (s.mode a).causes = 0 then entersDivertAll a u else { st := u, out := [] }) := fun a u => by
    by_cases e : (s.mode a).causes = 0
    · rw [if_pos (show s.isOpen a = true from decide_eq_true e), if_pos e, enterDivertAll_eq]
    · rw [if_neg (by rw [show s.isOpen a = false from decide_eq_false e]; exact Bool.false_ne_true), if_neg e]
      rfl
  unfold addCauseBoth addedOnBoth
  dsimp only
  rw [joinCause_eq s .A c h, joinCause_eq _ .B c h, entered, funext (entered .B)]
  rfl

/-- R123: what is left of a set is empty, and was not, exactly when the cause was alone in it. -/
theorem alone_iff (x : BitVec 8) (c : Cause) :
    (¬ x = 0 ∧ x &&& ~~~(BitVec.twoPow 8 c.index) = 0) ↔ x = BitVec.twoPow 8 c.index := by
  have all : ∀ (x : BitVec 8) (n : Fin 8),
      (¬ x = 0 ∧ x &&& ~~~(BitVec.twoPow 8 n.val) = 0) ↔ x = BitVec.twoPow 8 n.val := by decide +kernel
  exact all x ⟨c.index, c.index_lt⟩

/-- R134: what the removal of a shared cause from both approaches does. -/
theorem removeCauseBoth_eq (c : Cause) (s : State) : removeCauseBoth c s = removedFromBoth c s := by
  have left : ∀ a, (((s.dropCause .A c).dropCause .B c).mode a).causes
      = (s.mode a).causes &&& ~~~(BitVec.twoPow 8 c.index) := fun a => by cases a <;> rfl
  have opened : ∀ a u,
      (if s.isOpen a = false ∧ ((s.dropCause .A c).dropCause .B c).isOpen a = true then openApproach a u else Eff.of u)
        = (if (s.mode a).causes = BitVec.twoPow 8 c.index then becomesOpen a u else { st := u, out := [] }) := fun a u => by
    have key : (s.isOpen a = false ∧ ((s.dropCause .A c).dropCause .B c).isOpen a = true)
        ↔ (s.mode a).causes = BitVec.twoPow 8 c.index := by
      rw [← alone_iff _ c, ← left]
      simp [State.isOpen]
    by_cases e : (s.mode a).causes = BitVec.twoPow 8 c.index
    · rw [if_pos (key.2 e), if_pos e]
      rfl
    · rw [if_neg (mt key.1 e), if_neg e]
      rfl
  unfold removeCauseBoth removedFromBoth
  dsimp only
  rw [opened, funext (opened .B)]
  rfl

end Sys2Proof.Machine
end

