-- ==== Sys2Proof/Laws/Stations.lean ====
section
/-! SUPPORT. What the unbinding of a position does (R118, R157), and the fields of a binding request (R155, R156), said
once. -/

namespace Sys2Proof.Machine

/-! ## Orders that are lost (R118) -/

theorem allLanes_cases : ∀ j : LaneNo, j = 0 ∨ j = 1 ∨ j = 2 := by decide

theorem AspectRec.unanswered_eq {α : Type} (r : AspectRec α) :
    r.unanswered = if r.order.tag?.isSome = true then r.lost else r := by
  unfold AspectRec.unanswered
  cases h : r.order <;> simp [OrderState.tag?, AspectRec.lost]

/-- R118: one record is made FAILED where it has an outstanding order. -/
abbrev failOne (a : Approach) (r : RecordId) (s : State) : Eff :=
  if (s.orderOf a r).tag?.isSome = true then lostRecord a r s else Eff.of s

/-- R118: a record whose order is outstanding. -/
def State.awaits (s : State) (a : Approach) (r : RecordId) : Bool := (s.orderOf a r).tag?.isSome

/-- R116, R122: nothing changes but the aspect records and the approach's count of FAILED records, which rises by a
number, and as often the gantry is to be judged. -/
def FailedOnly (a : Approach) (s : State) (n : Nat) (e : Eff) : Prop :=
  e.st = { s with
      aspects := e.st.aspects,
      modes := s.modes.set a { s.mode a with failedCount := (s.mode a).failedCount + n } }
    ∧ e.out = List.replicate n (.judgeGantry a)

theorem FailedOnly.none (a : Approach) (s : State) : FailedOnly a s 0 (Eff.of s) := by
  refine ⟨?_, rfl⟩
  cases a <;> rfl

theorem FailedOnly.bind {a : Approach} {s : State} {m n : Nat} {e : Eff} {f : State → Eff} (h : FailedOnly a s m e)
    (h' : FailedOnly a e.st n (f e.st)) : FailedOnly a s (m + n) (e.bind f) := by
  refine ⟨?_, ?_⟩
  · have mode : e.st.mode a = { s.mode a with failedCount := (s.mode a).failedCount + m } := by
      rw [h.1]
      cases a <;> rfl
    rw [Eff.bind_st, h'.1, mode, h.1]
    cases a <;> simp [Both.set, Nat.add_assoc]
  · rw [Eff.bind_out, h.2, h'.2, List.replicate_append_replicate]

/-- R116: a record that was not FAILED and is. -/
theorem failedOnly_noteFailed (a : Approach) (x : Both AspectSet) (s : State) :
    FailedOnly a s 1 (noteFailed a false true { s with aspects := x }) := ⟨rfl, rfl⟩

theorem failedOnly_failOne (a : Approach) (r : RecordId) (s : State) :
    FailedOnly a s (if s.awaits a r = true then 1 else 0) (failOne a r s) := by
  unfold failOne
  by_cases h : s.awaits a r = true
  · have pending : (s.orderOf a r).isFailed = false := by
      unfold State.awaits at h
      cases e : s.orderOf a r with
      | awaiting tag due => rfl
      | idle => rw [e] at h; cases h
      | failed => rw [e] at h; cases h
    rw [if_pos h, if_pos (show (s.orderOf a r).tag?.isSome = true from h)]
    cases r with
    | lane l =>
      show FailedOnly a s 1 (noteFailed a (s.orderOf a (.lane l)).isFailed true _)
      rw [pending]
      exact failedOnly_noteFailed ..
    | bay =>
      show FailedOnly a s 1 (noteFailed a (s.orderOf a .bay).isFailed true _)
      rw [pending]
      exact failedOnly_noteFailed ..
  · rw [if_neg h, if_neg (show ¬ (s.orderOf a r).tag?.isSome = true from h)]
    exact FailedOnly.none a s

theorem lost_lane_aspects (a : Approach) (l : LaneNo) (s : State) :
    (lostRecord a (.lane l) s).st.aspects = (s.setLane a l (s.lane a l).lost).aspects := noteFailed_aspects ..

theorem lost_bay_aspects (a : Approach) (s : State) :
    (lostRecord a .bay s).st.aspects = (s.setBay a (s.bay a).lost).aspects := noteFailed_aspects ..

theorem lane_of_aspects {s t : State} (h : t.aspects = s.aspects) (a : Approach) (l : LaneNo) : t.lane a l = s.lane a l :=
  congrArg (fun x => (x.get a).lanes.get l) h

theorem bay_of_aspects {s t : State} (h : t.aspects = s.aspects) (a : Approach) : t.bay a = s.bay a :=
  congrArg (fun x => (x.get a).bay) h

theorem failOne_lane (a : Approach) (l j : LaneNo) (s : State) :
    (failOne a (.lane l) s).st.lane a j = if j = l then (s.lane a j).unanswered else s.lane a j := by
  unfold failOne
  rw [AspectRec.unanswered_eq]
  by_cases e : j = l
  · rw [e, if_pos rfl]
    show (if (s.lane a l).order.tag?.isSome = true then _ else _ : Eff).st.lane a l = _
    split
    · rw [lane_of_aspects (lost_lane_aspects ..), State.lane_setLane_self]
    · rfl
  · rw [if_neg e]
    split
    · rw [lane_of_aspects (lost_lane_aspects ..), lane_setLane_of_ne _ _ _ e]
    · rfl

theorem failOne_bay (a : Approach) (s : State) : (failOne a .bay s).st.bay a = (s.bay a).unanswered := by
  unfold failOne
  rw [AspectRec.unanswered_eq]
  show (if (s.bay a).order.tag?.isSome = true then _ else _ : Eff).st.bay a = _
  split
  · rw [bay_of_aspects (lost_bay_aspects ..), State.bay_setBay_self]
  · rfl

theorem failOne_lane_bay (a : Approach) (l : LaneNo) (s : State) : (failOne a (.lane l) s).st.bay a = s.bay a := by
  unfold failOne
  split
  · rw [bay_of_aspects (lost_lane_aspects ..)]
    cases a <;> rfl
  · rfl

theorem failOne_bay_lane (a : Approach) (j : LaneNo) (s : State) : (failOne a .bay s).st.lane a j = s.lane a j := by
  unfold failOne
  split
  · rw [lane_of_aspects (lost_bay_aspects ..)]
    cases a <;> rfl
  · rfl

theorem failOne_other (a : Approach) {b : Approach} (r : RecordId) (s : State) (h : b ≠ a) :
    (failOne a r s).st.aspects.get b = s.aspects.get b := by
  unfold failOne
  split
  · cases r with
    | lane l => rw [lost_lane_aspects]; cases a <;> cases b <;> first | rfl | exact absurd rfl h
    | bay => rw [lost_bay_aspects]; cases a <;> cases b <;> first | rfl | exact absurd rfl h
  · rfl

/-- The number of an approach's outstanding orders. -/
theorem awaits_count (s : State) (a : Approach) (p : RecordId → Bool) (h : ∀ r, p r = s.awaits a r) :
    (allRecords.filter p).length
      = (if s.awaits a (.lane 0) = true then 1 else 0) + (if s.awaits a (.lane 1) = true then 1 else 0)
        + (if s.awaits a (.lane 2) = true then 1 else 0) + (if s.awaits a .bay = true then 1 else 0) := by
  unfold allRecords
  rw [show p = s.awaits a from funext h]
  cases h0 : s.awaits a (.lane 0) <;> cases h1 : s.awaits a (.lane 1) <;> cases h2 : s.awaits a (.lane 2) <;>
    cases h3 : s.awaits a .bay <;> simp [List.filter, h0, h1, h2, h3]

/-- R118: every outstanding order of an approach is failed, counted and reported. -/
theorem failOutstanding_all (a : Approach) (s : State) (p : RecordId → Bool) (hp : ∀ r, p r = s.awaits a r) :
    let e := (failOutstanding a s).emit [.judgeGantry a]
    let n := (allRecords.filter p).length
    e.st = { s with
        aspects := e.st.aspects,
        modes := s.modes.set a { s.mode a with failedCount := (s.mode a).failedCount + n } }
      ∧ (∀ j, e.st.lane a j = (s.lane a j).unanswered) ∧ e.st.bay a = (s.bay a).unanswered
      ∧ (∀ b, b ≠ a → e.st.aspects.get b = s.aspects.get b)
      ∧ e.out = List.replicate (n + 1) (.judgeGantry a) := by
  intro e n
  generalize h0 : (failOne a (.lane 0) s).st = s0
  generalize h1 : (failOne a (.lane 1) s0).st = s1
  generalize h2 : (failOne a (.lane 2) s1).st = s2
  have hst : e.st = (failOne a .bay s2).st := by rw [← h2, ← h1, ← h0]; rfl
  have lane (j : LaneNo) (t : State) : t.awaits a (.lane j) = (t.lane a j).order.tag?.isSome := rfl
  have bay (t : State) : t.awaits a .bay = (t.bay a).order.tag?.isSome := rfl
  have w1 : s0.awaits a (.lane 1) = s.awaits a (.lane 1) := by
    rw [lane, lane, ← h0, failOne_lane, if_neg (by decide)]
  have w2 : s1.awaits a (.lane 2) = s.awaits a (.lane 2) := by
    rw [lane, lane, ← h1, failOne_lane, if_neg (by decide), ← h0, failOne_lane, if_neg (by decide)]
  have w3 : s2.awaits a .bay = s.awaits a .bay := by
    rw [bay, bay, ← h2, failOne_lane_bay, ← h1, failOne_lane_bay, ← h0, failOne_lane_bay]
  have all : FailedOnly a s n (failOutstanding a s) := by
    have f0 := failedOnly_failOne a (.lane 0) s
    have f1 := f0.bind (failedOnly_failOne a (.lane 1) (failOne a (.lane 0) s).st)
    have f2 := f1.bind (failedOnly_failOne a (.lane 2) _)
    have f3 := f2.bind (failedOnly_failOne a .bay _)
    simp only [Eff.bind_st, h0, h1, h2, w1, w2, w3] at f3
    rw [show n = _ from awaits_count s a p hp]
    exact f3
  refine ⟨all.1, fun j => ?_, ?_, fun b hb => ?_, ?_⟩
  · rw [hst, failOne_bay_lane, ← h2, failOne_lane, ← h1, failOne_lane, ← h0, failOne_lane]
    rcases allLanes_cases j with h | h | h <;> rw [h] <;> simp
  · rw [hst, failOne_bay, ← h2, failOne_lane_bay, ← h1, failOne_lane_bay, ← h0, failOne_lane_bay]
  · rw [hst, failOne_other _ _ _ hb, ← h2, failOne_other _ _ _ hb, ← h1, failOne_other _ _ _ hb, ← h0,
      failOne_other _ _ _ hb]
  · rw [Eff.emit_out, all.2, List.replicate_succ']

/-! ## Unbinding (R157) -/

/-- R157: what the unbinding of a position does. -/
theorem State.unbind_unbinds (s : State) (k : LinkNo) (q : PosNo) : Unbinds s k q (s.unbind k q) := by
  refine ⟨?_, ?_, ?_, ?_⟩
  · intro h
    simp [State.unbind, h]
  · intro l h
    simp [State.unbind, h]
  · intro a lanes l h
    simp [State.unbind, h]
  · intro a l h
    refine ⟨(failOutstanding a (s.setEntry k q .unbound)).emit [.judgeGantry a], by simp [State.unbind, h],
      failOutstanding_all a (s.setEntry k q .unbound) _ fun r => ?_⟩
    show _ = (s.orderOf a r).tag?.isSome
    cases s.orderOf a r <;> rfl

/-- R157: an unbound position is unbound. -/
theorem State.unbind_entry (s : State) (k : LinkNo) (q : PosNo) : (s.unbind k q).entry k q = .unbound := by
  unfold State.unbind
  dsimp only
  split
  · assumption
  · rw [(settle_outside _).entry, State.entry_setEntry_self]
  · rw [(settle_outside _).entry, Eff.emit_st, (outside_failOutstanding _ _).entry, State.entry_setEntry_self]
  · exact State.entry_setEntry_self ..

/-! ## The fields of a request (R155, R156) -/

theorem below_eq_some {n v : Nat} {i : Fin n} : below n v = some i ↔ v = i.val := by
  unfold below
  constructor
  · intro h
    split at h
    · rw [← Option.some.inj h]
    · cases h
  · intro h
    rw [dif_pos (h ▸ i.isLt)]
    exact congrArg some (Fin.ext h)

theorem countedFrom1_eq_some {n v : Nat} {i : Fin n} : countedFrom1 n v = some i ↔ v = i.val + 1 := by
  unfold countedFrom1
  split
  · next h => exact ⟨fun h' => (nomatch h'), fun h' => by omega⟩
  · rw [below_eq_some]
    omega

/-- R155: the position that a request names. -/
theorem positionAt_eq_some (p : List Byte) (k : LinkNo) (q : PosNo) :
    positionAt p = some (k, q) ↔ byteAt p 0 = k.val ∧ byteAt p 1 = q.val + 1 := by
  rw [← below_eq_some, ← countedFrom1_eq_some]
  unfold positionAt
  cases below 4 (byteAt p 0) <;> cases countedFrom1 4 (byteAt p 1) <;> simp

/-- R155: a request names no position exactly when a field is out of its range. -/
theorem positionAt_eq_none (p : List Byte) :
    positionAt p = none ↔ ¬ (byteAt p 0 ≤ 3 ∧ 1 ≤ byteAt p 1 ∧ byteAt p 1 ≤ 4) := by
  constructor
  · intro h ⟨h0, h1, h2⟩
    rw [(positionAt_eq_some p ⟨byteAt p 0, by omega⟩ ⟨byteAt p 1 - 1, by omega⟩).2
      ⟨rfl, by show byteAt p 1 = byteAt p 1 - 1 + 1; omega⟩] at h
    cases h
  · intro h
    cases hp : positionAt p with
    | none => rfl
    | some kq =>
      obtain ⟨h0, h1⟩ := (positionAt_eq_some p kq.1 kq.2).1 hp
      exact (h ⟨by omega, by omega, by omega⟩).elim

/-- R155: three lane bytes of 0 or 1 name no lane exactly when all are 0. -/
theorem laneSet_eq_zero : ∀ a b c : Fin 2, BitVec.ofNat 3 (a.val + 2 * b.val + 4 * c.val) = 0 ↔ a = 0 ∧ b = 0 ∧ c = 0 := by
  decide +kernel

/-- R155: a lane set meets one of three lane bytes of 0 or 1 in a lane that both have. -/
theorem laneSet_meets : ∀ (a b c : Fin 2) (held : BitVec 3),
    held &&& BitVec.ofNat 3 (a.val + 2 * b.val + 4 * c.val) ≠ 0
      ↔ ∃ j : LaneNo, held.getLsbD j.val = true ∧ (match j with | 0 => a.val | 1 => b.val | 2 => c.val) = 1 := by
  decide +kernel

/-- R155: the lane bytes of a BIND STATION's payload. -/
abbrev laneByte (p : List Byte) (j : LaneNo) : Nat := byteAt p (4 + j.val)

/-- R155: the role fields of a BIND STATION are within their ranges. -/
def RoleFields (p : List Byte) : Prop :=
  1 ≤ byteAt p 2 ∧ byteAt p 2 ≤ 3 ∧ byteAt p 3 ≤ 1 ∧ (∀ j, laneByte p j ≤ 1)
    ∧ (byteAt p 2 = 1 → ∃ j, laneByte p j = 1) ∧ (byteAt p 2 = 2 → ∀ j, laneByte p j = 0)

/-- R155: the lane set that the lane bytes name. -/
def laneSetAt (p : List Byte) : BitVec 3 := BitVec.ofNat 3 (laneByte p 0 + 2 * laneByte p 1 + 4 * laneByte p 2)

theorem laneByte_all (p : List Byte) (P : Nat → Prop) :
    (∀ j, P (laneByte p j)) ↔ P (byteAt p 4) ∧ P (byteAt p 5) ∧ P (byteAt p 6) := by
  refine ⟨fun h => ⟨h 0, h 1, h 2⟩, fun ⟨h0, h1, h2⟩ j => ?_⟩
  rcases allLanes_cases j with e | e | e <;> rw [e] <;> assumption

theorem laneSetAt_eq_zero {p : List Byte} (h : ∀ j, laneByte p j ≤ 1) : laneSetAt p = 0 ↔ ∀ j, laneByte p j = 0 := by
  have ⟨h0, h1, h2⟩ := (laneByte_all p (· ≤ 1)).1 h
  have key := laneSet_eq_zero ⟨byteAt p 4, by omega⟩ ⟨byteAt p 5, by omega⟩ ⟨byteAt p 6, by omega⟩
  simp only [Fin.ext_iff] at key
  exact key.trans (laneByte_all p (· = 0)).symm

/-- R155: the role that fields within their ranges name. -/
theorem roleAt_of_fields {p : List Byte} (h : RoleFields p) {a : Approach}
    (ha : byteAt p 3 = match a with | .A => 0 | .B => 1) :
    roleAt p = some (if byteAt p 2 = 1 then .weigh a (laneSetAt p) else if byteAt p 2 = 2 then .gantry a else .centre) := by
  obtain ⟨h1, h3, -, lanes, some1, none2⟩ := h
  have zero := laneSetAt_eq_zero lanes
  have ⟨l0, l1, l2⟩ := (laneByte_all p (· ≤ 1)).1 lanes
  have named : approachOf (byteAt p 3) = some a := by
    rw [ha]
    cases a <;> rfl
  unfold roleAt
  rw [named]
  dsimp only
  rw [if_neg (by omega)]
  have cases3 : byteAt p 2 = 1 ∨ byteAt p 2 = 2 ∨ byteAt p 2 = 3 := by omega
  rcases cases3 with r | r | r
  · rw [r]
    refine (if_neg fun z => ?_).trans rfl
    obtain ⟨j, hj⟩ := some1 r
    rw [zero.1 z j] at hj
    cases hj
  · rw [r]
    exact (if_pos (zero.2 (none2 r))).trans rfl
  · rw [r]
    rfl

/-- R155: role fields out of their ranges name no role. -/
theorem roleAt_of_bad {p : List Byte} (h : ¬ RoleFields p) : roleAt p = none := by
  cases hr : roleAt p with
  | none => rfl
  | some role =>
    refine (h ?_).elim
    unfold roleAt at hr
    split at hr
    · cases hr
    · next a ha =>
      have h3 : byteAt p 3 ≤ 1 := by
        unfold approachOf at ha
        split at ha <;> first | omega | cases ha
      split at hr
      · cases hr
      · next small =>
        have lanes : ∀ j, laneByte p j ≤ 1 := (laneByte_all p (· ≤ 1)).2 ⟨by omega, by omega, by omega⟩
        have zero := laneSetAt_eq_zero lanes
        dsimp only at hr
        split at hr
        · next r =>
          refine ⟨by omega, by omega, h3, lanes, fun _ => ?_, fun _ => by omega⟩
          refine Classical.byContradiction fun none => ?_
          have z : laneSetAt p = 0 := zero.2 fun j => by
            have := lanes j
            have : laneByte p j ≠ 1 := fun e => none ⟨j, e⟩
            omega
          rw [show BitVec.ofNat 3 (byteAt p 4 + 2 * byteAt p 5 + 4 * byteAt p 6) = 0 from z, if_pos rfl] at hr
          cases hr
        · next r =>
          refine ⟨by omega, by omega, h3, lanes, fun _ => by omega, fun _ => zero.1 ?_⟩
          refine Classical.byContradiction fun z => ?_
          rw [if_neg (show ¬ BitVec.ofNat 3 (byteAt p 4 + 2 * byteAt p 5 + 4 * byteAt p 6) = 0 from z)] at hr
          cases hr
        · exact ⟨by omega, by omega, h3, lanes, fun _ => by omega, fun _ => by omega⟩
        · cases hr

/-- R155: another position holds a lane of the lane set, as a weigh station of the approach. -/
theorem conflicts_weigh {s : State} {k : LinkNo} {q : PosNo} {a : Approach} {p : List Byte}
    (lanes : ∀ j, laneByte p j ≤ 1) :
    s.conflicts k q (.weigh a (laneSetAt p)) = true ↔ ∃ (k' : LinkNo) (q' : PosNo), (k', q') ≠ (k, q)
      ∧ ∃ (held : BitVec 3) (x : Liveness) (j : LaneNo), s.entry k' q' = .bound (.weigh a held) x
        ∧ held.getLsbD j.val = true ∧ laneByte p j = 1 := by
  have ⟨l0, l1, l2⟩ := (laneByte_all p (· ≤ 1)).1 lanes
  have meets (held : BitVec 3) : held &&& laneSetAt p ≠ 0 ↔ ∃ j : LaneNo, held.getLsbD j.val = true ∧ laneByte p j = 1 := by
    refine (laneSet_meets ⟨byteAt p 4, by omega⟩ ⟨byteAt p 5, by omega⟩ ⟨byteAt p 6, by omega⟩ held).trans
      (exists_congr fun j => and_congr_right fun _ => ?_)
    rcases allLanes_cases j with e | e | e <;> rw [e] <;> exact Iff.rfl
  have all : ∀ k p : Fin 4, (k, p) ∈ allPositions := by decide +kernel
  unfold State.conflicts
  rw [List.any_eq_true]
  simp only [decide_eq_true_eq, List.mem_filter]
  constructor
  · rintro ⟨⟨k', q'⟩, ⟨-, h1⟩, h2⟩
    refine ⟨k', q', by simpa using h1, ?_⟩
    cases he : s.entry k' q' with
    | unbound => rw [he] at h2; simp [Entry.weighLanes] at h2
    | bound r x =>
      rw [he] at h2
      cases r with
      | weigh b held =>
        by_cases hb : b = a
        · rw [hb]
          simp only [Entry.weighLanes, hb, if_true] at h2
          obtain ⟨j, j1, j2⟩ := (meets held).1 h2
          exact ⟨held, x, j, rfl, j1, j2⟩
        · simp [Entry.weighLanes, hb] at h2
      | gantry b => simp [Entry.weighLanes] at h2
      | centre => simp [Entry.weighLanes] at h2
  · rintro ⟨k', q', h1, held, x, j, h2, h3, h4⟩
    refine ⟨(k', q'), ⟨all _ _, by simpa using h1⟩, ?_⟩
    simp only [h2, Entry.weighLanes, if_true]
    exact (meets held).2 ⟨j, h3, h4⟩

/-- R155: another position is the gantry of the approach. -/
theorem conflicts_gantry {s : State} {k : LinkNo} {q : PosNo} {a : Approach} :
    s.conflicts k q (.gantry a) = true ↔ ∃ (k' : LinkNo) (q' : PosNo), (k', q') ≠ (k, q)
      ∧ ∃ x : Liveness, s.entry k' q' = .bound (.gantry a) x := by
  have all : ∀ k p : Fin 4, (k, p) ∈ allPositions := by decide +kernel
  unfold State.conflicts
  rw [List.any_eq_true]
  simp only [List.mem_filter, decide_eq_true_eq]
  constructor
  · rintro ⟨⟨k', q'⟩, ⟨-, h1⟩, h2⟩
    refine ⟨k', q', h1, ?_⟩
    cases he : s.entry k' q' with
    | unbound => rw [he] at h2; simp [Entry.isGantry] at h2
    | bound r x =>
      rw [he] at h2
      cases r with
      | weigh b held => simp [Entry.isGantry] at h2
      | gantry b =>
        refine ⟨x, ?_⟩
        simp [Entry.isGantry] at h2
        rw [h2]
      | centre => simp [Entry.isGantry] at h2
  · rintro ⟨k', q', h1, x, h2⟩
    refine ⟨(k', q'), ⟨all _ _, h1⟩, ?_⟩
    simp [h2, Entry.isGantry]

end Sys2Proof.Machine
end

