-- ==== Sys2Proof/Tests/Slice0.lean ====
section
/-! SUPPORT. Tests: ill-formed commands that the check refuses, the manual's figures, single steps on small states, and
for every statement with hypotheses a state and operands that meet them, named test_witness_<what>. -/

namespace Sys2Proof.Tests

set_option Elab.async false

open Sys2Proof.Machine

/-- The next state of an outcome, if that is what it is. -/
def nextOf : Host.Outcome State Fault Refusal → Option State
  | .next s => some s
  | .fault _ => none
  | .refused _ => none

/-- The value of a check that passed. -/
def okOf {ε α : Type} : Except ε α → Option α
  | .ok x => some x
  | .error _ => none

/-- The reason of a check that failed. -/
def errorOf {ε α : Type} : Except ε α → Option ε
  | .ok _ => none
  | .error x => some x

/-! ## Well-formedness -/

theorem test_wf_keepalive : (Instr.keepalive 0 ⟨1, 7, []⟩).wf = true := by decide
theorem test_wf_hop_zero : (Instr.keepalive 0 ⟨0, 7, []⟩).wf = false := by decide
theorem test_wf_hop_above_four : (Instr.keepalive 0 ⟨5, 7, []⟩).wf = false := by decide
theorem test_wf_payload_64 : (Instr.queryPart 0 ⟨1, 7, List.replicate 64 0⟩).wf = true := by decide +kernel
theorem test_wf_payload_65 : (Instr.queryPart 0 ⟨1, 7, List.replicate 65 0⟩).wf = false := by decide +kernel
theorem test_wf_unknown_kind : (Instr.unknownKind 0 0x7F ⟨1, 7, []⟩).wf = true := by decide
theorem test_wf_unknown_kind_that_is_known : (Instr.unknownKind 0 0x40 ⟨1, 7, []⟩).wf = false := by decide
theorem test_wf_failed_reception : (Instr.receiveCheckFailed 0 ⟨[], false, false⟩).wf = true := by decide
theorem test_wf_sound_reception :
    (Instr.receiveCheckFailed 0 ⟨frameBytes 0x40 ⟨1, 7, []⟩, false, false⟩).wf = false := by decide +kernel

/-! ## Frames and words -/

theorem test_crc_of_123456789 : crc [0x31, 0x32, 0x33, 0x34, 0x35, 0x36, 0x37, 0x38, 0x39] = 0x29B1#16 := by
  decide +kernel
theorem test_no_word_spells_a_command : decodeTableWord 32 0x40 = none := rfl
theorem test_reception_of_query_span :
    okOf (decodeReception 2 1 (frameBytes 0x41 ⟨1, 9, [3]⟩)) = some (.querySpan 2 ⟨1, 9, [3]⟩) := by decide +kernel
theorem test_alert_is_no_request :
    okOf (decodeReception 0 1 (frameBytes 0x30 ⟨1, 9, []⟩)) = some (.unknownKind 0 0x30 ⟨1, 9, []⟩) := by decide +kernel
theorem test_length_is_checked_before_crc : firstFailedCheck 1 [1, 2, 3] false false false = some .length := by decide
theorem test_noise_is_checked_before_length : firstFailedCheck 1 [1, 2, 3] false true false = some .noise := by decide
theorem test_assignment_of_boundary_two :
    assignmentOf 0x010402 = some (some ⟨.B, .boundary 1⟩) := by decide
theorem test_no_lane_four : assignmentOf 0x000104 = none := by decide

/-! ## Small states -/

/-- A frame from position 1. -/
def fr (payload : List Byte) : Frame := ⟨1, 7, payload⟩

/-- A RUNNING part, 100 s after its reset: two spans of 40 m and 8000; approach A with two lanes and a bay of 2, open;
approach B with one lane, under a centre's order; a weigh station and a gantry of A on link 1. -/
def site : State :=
  (({ State.reset with
      part := { State.reset.part with state := .running, timebase := 100000 },
      profile := { Profile.reset with
        spanCount := 2, spanLength := #v[40, 40, 0, 0], lanes := ⟨2, 1⟩, bayCapacity := ⟨2, 0⟩,
        distWeighGantry := ⟨600, 600⟩, distGantryEntry := ⟨200, 200⟩, distBayEntry := ⟨80, 0⟩ },
      links := upd State.reset.links 1 fun r => { r with chain := 3 },
      account := State.reset.account.map fun r => { r with massLimit := 8000, countLimit := 4 },
      modes := ⟨{ Mode.reset with causes := 0, lineAsserted := false }, { Mode.reset with causes := 0x02 }⟩ } : State).setEntry
    1 0 (.bound (.weigh .A 3) (.live 102000))).setEntry 1 1 (.bound (.gantry .A) (.live 102000))

/-- A ticket of approach A, weighed 1 s before, on lane 1. -/
def weighed (d : Decision) : Ticket :=
  { weighedTicket 1 .A 0 99000 720 [600, 700] .good 10 with decision := some d }

/-- An escort of approach A in the escort slot. -/
def escorted : Ticket := escortTicket 1 .A 99000 720 [600, 700]

/-- A ticket with a due that has just come. -/
def due (t : Ticket) (kind : DueKind) : State := (site.addTicket t).setDue t.handle kind 100000

/-- A ticket at the head of lane 1. -/
def queued (t : Ticket) : State :=
  (site.addTicket t).updPlaces .A fun p => { p with lanes := upd p.lanes 0 fun _ => [t.handle] }

/-- A ticket in the leaving slot. -/
def leaving (t : Ticket) : State := (site.addTicket t).updPlaces .A fun p => { p with leaving := some t.handle }

/-- A ticket at the head of the run list. -/
def running (t : Ticket) : State := (site.addTicket t).updPlaces .A fun p => { p with run := [t.handle] }

/-- A ticket on span 2. -/
def onSpan2 (t : Ticket) : State :=
  (site.addTicket t).updPlaces .A fun p => { p with spans := upd p.spans 1 fun _ => [t.handle] }

/-- A ticket at the head of the bay segment. -/
def bayed (t : Ticket) : State := (site.addTicket t).setHold .A { bay := [t.handle], nearing := [] }

/-- A part whose gantry of A has an order outstanding on lane 1, under tag 7 and due now. -/
def ordered (pending : Option Aspect) : State :=
  site.setLane .A 0 { laneReset with
    wanted := .proceed, ordered := some .proceed, order := .awaiting 7 100000, pending := pending }

/-- A part whose gantry of A has a bay order outstanding, under tag 7 and due now. -/
def bayOrdered (pending : Option BayAspect) : State :=
  site.setBay .A { bayReset with
    wanted := .releaseViaduct, ordered := some .releaseViaduct, order := .awaiting 7 100000, pending := pending }

/-- A part whose gantry of A is SILENT. -/
def silent : State := site.setEntry 1 1 (.bound (.gantry .A) .silent)

/-- A part in CLEARING whose clearance due has come. -/
def clearing : State :=
  { site with part := { site.part with state := .clearing, clearanceDue := some 100000 } }

/-- A line of A's gantry, lane 1, in a state. -/
def lineIs (x : LineState) : State :=
  site.updLine 0 fun r => { r with
    point := some ⟨.A, .gantry 0⟩, state := x, confirmDue := some 100000, stuckDue := some 100000 }

/-- A part held in reset. -/
def held : State := { State.reset with part := { State.reset.part with held := some .supply } }

/-! ## Single steps -/

theorem test_reset_end_from_reset :
    nextOf (exec (.resetEnd false false) held) = some State.reset := by decide +kernel
theorem test_idle_step_counts :
    nextOf (step State.reset) = some { State.reset with part := { State.reset.part with timebase := 1 } } := by decide +kernel
theorem test_query_of_unknown_code_is_answered :
    nextOf (exec (.unknownKind 0 0x7F (fr [])) State.reset)
      = some (State.reset.answeredCentre (fr []) [2]) := by decide +kernel
theorem test_gantry_head_passes_and_runs_in :
    ((gantryDetection .A 0 100000 (queued (weighed .divert))).st.places .A).watch = [1] := by decide +kernel
theorem test_due_before_it_has_come :
    nextOf (exec .watchEnd ((site.addTicket (weighed .divert)).setDue 1 .watchEnd 100001))
      = some ((site.addTicket (weighed .divert)).setDue 1 .watchEnd 100001) := by decide +kernel
theorem test_watch_end_closes :
    nextOf (exec .watchEnd (due (weighed .divert) .watchEnd))
      = some { site with table := { site.table with
          closeQueue := [(weighed .divert).summary .complied 100000] } } := by decide +kernel
theorem test_failed_bay_attempt_leaves_doubt :
    ((attemptBay .B .releaseViaduct (site.setBay .B { bayReset with confirmed := some .hold })).st.bay .B).confirmed
      = none := by decide +kernel
theorem test_bay_arrival_derives_its_lane_first :
    (gantryDetection .A 0 100000 (queued (weighed .hold))).out = [.deriveLane .A 0, .arbiter] := by decide +kernel

/-! ## Witnesses: the queue, time, links -/

theorem test_witness_front_command : ({ site with pending := [.supplyReset] } : State).pending = .supplyReset :: [] := rfl
theorem test_witness_idle :
    site.pending = [] ∧ site.inReset = false ∧ held.pending = [] ∧ held.inReset = true := by decide +kernel
theorem test_witness_speed : 0 < 720 := by decide
theorem test_witness_stretch : site.profile.tolerance = 20 ∧ site.profile.slack = 5000 := by decide
theorem test_witness_frame_checks :
    firstFailedCheck 1 (frameBytes 1 ⟨1, 7, []⟩) false false false = none
      ∧ firstFailedCheck 1 (frameBytes 1 ⟨2, 7, []⟩) false false false = some .strayHop
      ∧ firstFailedCheck 1 (frameBytes 1 ⟨0, 7, []⟩) false false false = some .strayHop
      ∧ firstFailedCheck 1 [1, 1, 7, 0, 0, 0] false false false = some .check
      ∧ firstFailedCheck 1 [1, 1, 7, 65, 0, 0] false false false = some .length
      ∧ firstFailedCheck 1 [] false false true = some .length := by decide +kernel
theorem test_witness_failed_frame :
    site.inReset = false ∧ (site.link 2).lineState ≠ .sending
      ∧ firstFailedCheck (site.link 2).chain (([] : List Byte).take 70) false false (decide (70 < 0)) = some .length := by
  decide +kernel
theorem test_witness_event_not_offered :
    ¬ (({ site with centre := { site.centre with mask := 0xFFF } } : State).centre.mask.getLsbD Event.violation.index = false
        ∧ ({ site with centre := { site.centre with mask := 0xFFF } } : State).centreLive = true)
      ∧ ¬ ((site.setEntry 0 0 (.bound .centre .silent)).centre.mask.getLsbD Event.violation.index = false
        ∧ (site.setEntry 0 0 (.bound .centre .silent)).centreLive = true) := by decide +kernel
theorem test_witness_event_offered :
    site.centre.mask.getLsbD 3 = false ∧ site.centreLive = true ∧ site.hasRoom site.centreLink = true := by
  decide +kernel

/-- A part whose centre's link has a full transmit queue. -/
def full : State :=
  site.updLink 0 fun r => { r with queue := List.replicate 16 (txFrame 1 .alert 0 []) }

theorem test_witness_full_queue :
    full.centre.mask.getLsbD 3 = false ∧ full.centreLive = true ∧ full.hasRoom full.centreLink = false := by
  decide +kernel

/-- A part whose link 1 has a full transmit queue. -/
def stuffed : State :=
  site.updLink 1 fun r => { r with queue := List.replicate 16 (txFrame 1 .answer 0 []) }

theorem test_witness_answer_at_a_full_queue :
    CentreAsks full (fr []) (.live 2000) ∧ full.hasRoom full.centreLink = false
      ∧ Arrives stuffed 1 (fr []) 0 ∧ stuffed.entry 1 0 = .bound (.weigh .A 3) (.live 102000) ∧ stuffed.hasRoom 1 = false
      ∧ (stuffed.entry 1 0).permits 0x40 = false := by decide +kernel
theorem test_dropped_answer_raises_link_error :
    (nextOf (exec (.keepalive 1 (fr [])) stuffed)).map (fun t => (t.centre.summary, (t.link 1).queue.length))
        = some (BitVec.twoPow 12 Event.linkError.index, 16)
      ∧ (nextOf (exec (.readEvents 0 (fr [])) { full with centre := { full.centre with summary := 5 } })).map
          (fun t => (t.centre.summary, (t.link 0).queue.length)) = some (BitVec.twoPow 12 Event.linkError.index, 16) := by
  decide +kernel

/-- A link with one frame to send. -/
def sending (x : LinkState) (reset : Bool) : State :=
  site.updLink 2 fun r => { r with
    lineState := x, queue := [{ txFrame 1 .answer 7 [0] with resetAnswer := reset }] }

theorem test_witness_frames_sent :
    (sending .listening false).inReset = false ∧ ((sending .listening false).link 2).lineState = .listening
      ∧ ((sending .listening false).link 2).queue ≠ []
      ∧ ((sending .sending false).link 2).lineState = .sending
      ∧ ((sending .sending false).link 2).queue
          = { txFrame 1 .answer 7 [0] with resetAnswer := false } :: [] := by decide +kernel
theorem test_witness_keepalive :
    Arrives site 1 (fr []) 0 ∧ site.hasRoom 1 = true ∧ site.entry 1 0 = .bound (.weigh .A 3) (.live 102000) := by
  decide +kernel
theorem test_witness_kind_not_permitted :
    frameOfCommand (.queryPart 1 (fr [])) = some (1, 0x40, fr []) ∧ Arrives site 1 (fr []) 0 ∧ site.hasRoom 1 = true
      ∧ (site.entry 1 0).permits 0x40 = false ∧ (site.entry 1 0).permits 3 = false := by decide +kernel
theorem test_witness_hearing :
    frameOfCommand (.weighRecord 1 (fr [])) = some (1, 0x10, fr []) ∧ Arrives site 1 (fr []) 0
      ∧ site.entry 1 0 = .bound (.weigh .A 3) (.live 102000) := by decide +kernel
theorem test_witness_hearing_of_the_centre :
    frameOfCommand (.queryPart 0 (fr [])) = some (0, 0x40, fr []) ∧ Arrives site 0 (fr []) 0
      ∧ site.entry 0 0 = .bound .centre (.live 2000) ∧ (0 : LinkNo) = site.centreLink := by decide +kernel
theorem test_witness_hearing_alone :
    site.entry 1 2 = .unbound ∧ site.entry 0 0 = .bound .centre (.live 2000)
      ∧ site.entry 1 0 = .bound (.weigh .A 3) (.live 102000)
      ∧ (site.setEntry 1 0 (.bound (.weigh .A 3) .silent)).entry 1 0 = .bound (.weigh .A 3) .silent := by decide +kernel
theorem test_witness_chain_set :
    Arrives site 1 (fr [4]) 0 ∧ (fr [4]).payload.length = 1 ∧ byteAt (fr [4]).payload 0 = 4
      ∧ (site.link 1).chain ≤ 4 ∧ byteAt (fr [1]).payload 0 < (site.link 1).chain
      ∧ Arrives site 1 (fr [1]) 0 ∧ byteAt (fr [5]).payload 0 = 5 ∧ Arrives site 1 (fr [5]) 0 := by decide +kernel

/-! ## Witnesses: gantries, stations -/

theorem test_witness_order_attempts :
    site.gantryOf .B = none ∧ site.gantryOf .A = some (1, 1) ∧ (site.entry 1 1).isLive = true ∧ site.hasRoom 1 = true
      ∧ silent.gantryOf .A = some (1, 1) ∧ (silent.entry 1 1).isLive = false
      ∧ (site.updLink 1 fun r => { r with queue := List.replicate 16 (txFrame 1 .answer 0 []) }).hasRoom 1 = false
      ∧ (site.lane .A 1).wanted = .rest ∧ (site.lane .A 1).order = .idle ∧ (site.lane .A 0).order = .failed
      ∧ ((ordered none).lane .A 0).order = .awaiting 7 100000 ∧ ((ordered none).lane .A 0).wanted ≠ .divert
      ∧ (site.bay .A).wanted = .hold ∧ (site.bay .A).order = .idle
      ∧ ((bayOrdered none).bay .A).order = .awaiting 7 100000 ∧ ((bayOrdered none).bay .A).wanted ≠ .hold := by
  decide +kernel
theorem test_witness_lanes :
    site.profile.lanes.get .A ≤ (2 : LaneNo).val ∧ (1 : LaneNo).val < site.profile.lanes.get .A
      ∧ (site.mode .A).causes = 0 ∧ ¬ (site.mode .B).causes = 0 ∧ (0 : LaneNo).val < site.profile.lanes.get .B
      ∧ site.laneList .A 1 = []
      ∧ (∀ d ∈ [Decision.pass, .hold, .divert], ((queued (weighed d)).mode .A).causes = 0
          ∧ (queued (weighed d)).laneHead .A 0 = some 1 ∧ (queued (weighed d)).ticket 1 = some (weighed d))
      ∧ ((queued (weighed .pass)).lane .A 0).wanted ≠ .proceed := by decide +kernel
theorem test_witness_lane_early_and_late :
    (3000 : Int) ≤ (after 99000 (travel 600 720) - (queued (weighed .pass)).now).toInt
      ∧ ¬ (3000 : Int) ≤ (after 99000 (travel 600 720)
          - ({ site with part := { site.part with timebase := 126001 } } : State).now).toInt
      ∧ ((ordered none).lane .A 0).wanted = .proceed := by decide +kernel
theorem test_witness_gantry_answers :
    Arrives (ordered none) 1 ⟨2, 7, [10]⟩ 1 ∧ (ordered none).entry 1 1 = .bound (.gantry .A) (.live 102000)
      ∧ (ordered none).pairedRecord .A 7 = some (.lane 0) ∧ ((ordered none).lane .A 0).pending = none
      ∧ (bayOrdered none).pairedRecord .A 7 = some .bay ∧ ((bayOrdered none).bay .A).pending = none
      ∧ site.pairedRecord .A 7 = none ∧ Arrives (ordered none) 1 ⟨2, 7, [11]⟩ 1 := by decide +kernel
theorem test_witness_pending_aspects :
    Arrives (ordered (some .divert)) 1 ⟨2, 7, [10]⟩ 1 ∧ (ordered (some .divert)).pairedRecord .A 7 = some (.lane 0)
      ∧ ((ordered (some .divert)).lane .A 0).pending = some .divert
      ∧ ((ordered (some .divert)).lane .A 0).ordered ≠ some .divert
      ∧ ((ordered (some .proceed)).lane .A 0).pending = ((ordered (some .proceed)).lane .A 0).ordered
      ∧ (bayOrdered (some .hold)).pairedRecord .A 7 = some .bay
      ∧ ((bayOrdered (some .hold)).bay .A).pending = some .hold
      ∧ ((bayOrdered (some .hold)).bay .A).ordered ≠ some .hold
      ∧ ((bayOrdered (some .releaseViaduct)).bay .A).pending = ((bayOrdered (some .releaseViaduct)).bay .A).ordered := by
  decide +kernel
theorem test_witness_gantry_hearing :
    site.entry 1 1 = .bound (.gantry .A) (.live 102000) ∧ silent.entry 1 1 = .bound (.gantry .A) .silent
      ∧ (0 : LaneNo).val < site.profile.lanes.get .A ∧ (site.lane .A 0).order = .failed
      ∧ 0 < site.profile.bayCapacity.get .A := by decide +kernel
theorem test_witness_order_runs_out :
    (ordered none).inReset = false ∧ ((ordered none).lane .A 0).order = .awaiting 7 100000
      ∧ ((bayOrdered none).bay .A).order = .awaiting 7 100000 ∧ hasCome site.now 100000 = true
      ∧ hasCome site.now 100001 = false := by decide +kernel
theorem test_witness_silence :
    site.inReset = false ∧ (site.setEntry 1 1 (.bound (.gantry .A) (.live 100000))).entry 1 1
      = .bound (.gantry .A) (.live 100000) ∧ hasCome site.now 100000 = true := by decide +kernel
theorem test_witness_judgements :
    (∀ l ∈ allLanes, l.val < site.profile.lanes.get .A → site.served .A l = true)
      ∧ (0 : LaneNo).val < site.profile.lanes.get .B ∧ site.served .B 0 = false
      ∧ site.gantryOf .A = some (1, 1) ∧ site.entry 1 1 = .bound (.gantry .A) (.live 102000)
      ∧ (site.mode .A).failedCount = 0 ∧ ((site.updMode .A fun m => { m with failedCount := 1 }).mode .A).failedCount ≠ 0
      ∧ silent.gantryOf .A = some (1, 1) ∧ silent.entry 1 1 = .bound (.gantry .A) .silent
      ∧ (∀ k p : Fin 4, (site.entry k p).isGantry .B = false) := by decide +kernel
theorem test_witness_bind :
    CentreAsks site (fr [1, 3, 2, 1, 0, 0, 0]) (.live 2000)
      ∧ positionAt (fr [1, 3, 2, 1, 0, 0, 0]).payload = some (1, 2)
      ∧ roleAt (fr [1, 3, 2, 1, 0, 0, 0]).payload = some (.gantry .B) ∧ ¬ (site.link 1).chain < 3
      ∧ site.conflicts 1 2 (.gantry .B) = false ∧ site.conflicts 1 2 (.gantry .A) = true
      ∧ roleAt (fr [1, 3, 2, 0, 0, 0, 0]).payload = some (.gantry .A)
      ∧ positionAt (fr [1, 4, 2, 1, 0, 0, 0]).payload = some (1, 3) ∧ (site.link 1).chain < 4
      ∧ positionAt (fr [0, 1, 2, 1, 0, 0, 0]).payload = some (0, 0) := by decide +kernel
theorem test_witness_bind_not_valued :
    ∀ p ∈ [[], [1, 3, 2, 1, 0, 0], [4, 3, 2, 1, 0, 0, 0], [1, 0, 2, 1, 0, 0, 0], [1, 5, 2, 1, 0, 0, 0], [1, 3, 0, 1, 0, 0, 0],
        [1, 3, 4, 1, 0, 0, 0], [1, 3, 2, 2, 0, 0, 0], [1, 3, 1, 1, 1, 0, 2], [1, 3, 1, 1, 0, 0, 0], [1, 3, 2, 1, 0, 0, 1]],
      CentreAsks site (fr p) (.live 2000)
        ∧ nextOf (exec (.bindStation 0 (fr p)) site) = some (site.answeredCentre (fr p) [4]) := by decide +kernel
theorem test_witness_bind_valued :
    (∀ p ∈ [[1, 3, 1, 0, 0, 0, 1], [1, 3, 1, 1, 1, 1, 1], [1, 1, 1, 0, 1, 1, 0], [1, 2, 2, 0, 0, 0, 0], [1, 3, 3, 0, 0, 0, 0],
        [0, 1, 1, 0, 1, 0, 0], [3, 4, 2, 1, 0, 0, 0], [1, 3, 1, 0, 0, 1, 0], [1, 3, 2, 0, 0, 0, 0]],
        CentreAsks site (fr p) (.live 2000) ∧ p.length = 7 ∧ (positionAt p).isSome = true ∧ (roleAt p).isSome = true)
      ∧ site.conflicts 1 2 (.weigh .A 4) = false ∧ site.conflicts 1 0 (.weigh .A 3) = false
      ∧ site.conflicts 1 1 (.gantry .A) = false ∧ site.conflicts 1 2 (.weigh .A 2) = true := by decide +kernel
theorem test_witness_bind_refused :
    (∀ x ∈ [([1, 3, 3, 0, 0, 0, 0], 3), ([0, 1, 1, 0, 1, 0, 0], 3), ([3, 4, 2, 1, 0, 0, 0], 4), ([1, 3, 1, 0, 0, 1, 0], 9),
        ([1, 3, 2, 0, 0, 0, 0], 9)],
        nextOf (exec (.bindStation 0 (fr x.1)) site) = some (site.answeredCentre (fr x.1) [x.2])) := by decide +kernel
theorem test_witness_unbind_not_valued :
    ∀ p ∈ [[], [1], [1, 1, 0], [4, 1], [1, 0], [1, 5]], CentreAsks site (fr p) (.live 2000)
      ∧ nextOf (exec (.unbindStation 0 (fr p)) site) = some (site.answeredCentre (fr p) [4]) := by decide +kernel
/-- A gantry that is replaced by a gantry of its approach: its outstanding order is FAILED. -/
theorem test_witness_bind_that_replaces_a_gantry :
    CentreAsks (ordered none) (fr [1, 2, 2, 0, 0, 0, 0]) (.live 2000)
      ∧ (nextOf (exec (.bindStation 0 (fr [1, 2, 2, 0, 0, 0, 0])) (ordered none))).map
          (fun t => ((t.lane .A 0).order, t.entry 1 1)) = some (.failed, .bound (.gantry .A) .silent) := by decide +kernel
theorem test_witness_unbind :
    CentreAsks site (fr [1, 1]) (.live 2000) ∧ positionAt (fr [1, 1]).payload = some (1, 0)
      ∧ site.entry 1 0 ≠ .unbound ∧ positionAt (fr [1, 3]).payload = some (1, 2) ∧ site.entry 1 2 = .unbound
      ∧ positionAt (fr [0, 1]).payload = some (0, 0) := by decide +kernel
theorem test_witness_unbind_a_station :
    positionAt (fr [1, 1]).payload = some (1, 0) ∧ site.entry 1 0 = .bound (.weigh .A 3) (.live 102000)
      ∧ CentreAsks (ordered none) (fr [1, 2]) (.live 2000) ∧ positionAt (fr [1, 2]).payload = some (1, 1)
      ∧ (ordered none).entry 1 1 = .bound (.gantry .A) (.live 102000)
      ∧ ((ordered none).lane .A 0).order = .awaiting 7 100000 ∧ (fr [1, 2]).payload.length = 2
      ∧ ¬ ((1 : LinkNo) = site.centreLink ∧ (1 : PosNo) = 0) := by decide +kernel

/-- The order that was outstanding fails, and so does the DIVERT that the restricted approach then attempts on lane 2. -/
theorem test_unbound_gantry_fails_its_orders :
    (nextOf (exec (.unbindStation 0 (fr [1, 2])) (ordered none))).map
        (fun t => ((t.lane .A 0).order, (t.mode .A).failedCount, t.holds .A .gantryFault))
      = some (.failed, 2, true) := by decide +kernel

/-! ## Witnesses: tickets -/

/-- A table with a number of tickets, of no axles each. -/
def crowded (n : Nat) : State :=
  { site with table := { site.table with
      tickets := (List.range n).map fun i => { weighed .divert with handle := i + 1, axles := [] } } }

theorem test_witness_allocation :
    60 - (crowded 56).table.tickets.length ≤ 4 ∧ 4 < 60 - (crowded 55).table.tickets.length
      ∧ (289 + 2) / 3 > site.table.freeCells ∧ (288 + 2) / 3 ≤ site.table.freeCells := by decide +kernel
theorem test_witness_evaluation :
    (weighed .pass).confidence ≠ some .bad ∧ ¬ (∃ x ∈ (weighed .pass).axles, site.profile.axleLimit < x)
      ∧ (weighed .pass).mass ≤ site.profile.grossLimit
      ∧ ¬ (∃ i ∈ site.spansInUse, (site.spanRec i).massLimit < (weighed .pass).mass)
      ∧ site.isOpen .A = true ∧ site.isOpen .B = false ∧ site.escortActive = false
      ∧ (site.hold .A).bay = [] ∧ (site.hold .A).nearing = [] ∧ site.fits 1300 = true ∧ site.fits 8001 = false
      ∧ ¬ ((bayed (weighed .hold)).hold .A).bay = []
      ∧ ({ site with admission := { site.admission with escortSlot := some 1 } } : State).escortActive = true
      ∧ (∃ x ∈ [1001], site.profile.axleLimit < x) ∧ site.profile.grossLimit < 4401
      ∧ (∃ i ∈ (site.updSpan 0 fun r => { r with massLimit := 1299 }).spansInUse,
          ((site.updSpan 0 fun r => { r with massLimit := 1299 }).spanRec i).massLimit < (weighed .pass).mass) := by
  decide +kernel

/-- A WEIGH RECORD's payload: lane 1, two axles, GOOD, age 1000, speed 72.0 km/h. -/
def record : List Byte := [1, 2, 0, 3, 232, 2, 208, 2, 88, 2, 188]

theorem test_witness_weigh_checks :
    State.reset.part.state = .unconfigured ∧ site.part.state ≠ .unconfigured
      ∧ okOf (site.checkWeigh .A 3 record) = some ⟨0, [600, 700], .good, 1000, 720⟩
      ∧ errorOf (site.checkWeigh .A 3 (3 :: record.tail)) = some .notPermitted
      ∧ errorOf (site.checkWeigh .A 3 (1 :: 1 :: record.drop 2)) = some .badValue
      ∧ okOf (site.checkWeigh .A 3 [1, 2, 0, 7, 208, 5, 220, 25, 100, 25, 100]) = some ⟨0, [6500, 6500], .good, 2000, 1500⟩
      ∧ errorOf (site.checkWeigh .A 3 [1, 2, 0, 7, 209, 5, 220, 25, 100, 25, 100]) = some .badValue := by decide +kernel
theorem test_witness_weigh_record :
    Arrives site 1 (fr record) 0 ∧ site.entry 1 0 = .bound (.weigh .A 3) (.live 102000) ∧ site.hasRoom 1 = true
      ∧ okOf (site.checkWeigh .A 3 (fr record).payload) = some ⟨0, [600, 700], .good, 1000, 720⟩
      ∧ site.ordinaryHandle 2 = some 1 := by decide +kernel
theorem test_witness_weigh_decisions :
    (site.verdict (weighed .divert)).1 = .pass
      ∧ ((bayed { weighed .hold with state := .bayed }).verdict (weighed .divert)).1 = .hold
      ∧ (0 : SpanNo).val < site.profile.spanCount ∧ ¬ (2 : SpanNo).val < site.profile.spanCount := by decide +kernel
theorem test_ticket_stands_when_its_answer_is_dropped :
    okOf (stuffed.checkWeigh .A 3 (fr record).payload) = some ⟨0, [600, 700], .good, 1000, 720⟩
      ∧ stuffed.ordinaryHandle 2 = some 1
      ∧ (nextOf (exec (.weighRecord 1 (fr record)) stuffed)).map
          (fun t => ((t.ticket 1).isSome, t.centre.summary.getLsbD Event.linkError.index)) = some (true, true) := by
  decide +kernel
theorem test_witness_refused_record :
    Arrives site 1 (fr []) 0 ∧ errorOf (site.checkWeigh .A 3 (fr []).payload) = some .badValue
      ∧ okOf ((crowded 56).checkWeigh .A 3 (fr record).payload) = some ⟨0, [600, 700], .good, 1000, 720⟩
      ∧ (crowded 56).ordinaryHandle 2 = none := by decide +kernel
theorem test_witness_dues_close :
    DueComes (due (weighed .divert) .watchEnd) .watchEnd ⟨100000, 1, .watchEnd⟩ [] (weighed .divert)
      ∧ DueComes (due escorted .waitLimit) .waitLimit ⟨100000, 1, .waitLimit⟩ [] escorted
      ∧ DueComes (due (weighed .pass) .entryDue) .entryDue ⟨100000, 1, .entryDue⟩ [] (weighed .pass)
      ∧ (due (weighed .pass) .entryDue).holds .A .detectorFault = false ∧ escorted.origin = .escort := by decide +kernel

/-- A CROSSING ticket, STALLED on span 1. -/
def stalled : Ticket := ({ weighed .pass with state := .crossing, span := some 0 } : Ticket).flag .stalled

theorem test_witness_centre_closes :
    CentreAsks (due escorted .waitLimit) (fr [1]) (.live 2000) ∧ (fr [1]).payload.length = 1
      ∧ (due escorted .waitLimit).ticket 1 = some escorted ∧ escorted.state ≠ .crossing
      ∧ ({ escorted with state := .crossing } : Ticket).origin = .escort
      ∧ (due escorted .waitLimit).ticket 2 = none ∧ (onSpan2 stalled).ticket 1 = some stalled
      ∧ stalled.state = .crossing ∧ stalled.has .stalled = true ∧ stalled.origin ≠ .escort
      ∧ CentreAsks (onSpan2 stalled) (fr [1]) (.live 2000)
      ∧ (∀ p ∈ [[], [1, 0]], CentreAsks (onSpan2 stalled) (fr p) (.live 2000) ∧ (fr p).payload.length ≠ 1) := by
  decide +kernel

/-- A part in DRAINING. -/
def draining (s : State) : State := { s with part := { s.part with state := .draining } }

theorem test_witness_no_live_ticket :
    (draining site).part.state = .draining ∧ (draining site).table.tickets = []
      ∧ (draining (bayed (weighed .hold))).table.tickets ≠ [] ∧ site.part.state ≠ .draining := by decide +kernel
theorem test_last_closing_is_reported :
    (closeTicket 1 .complied (bayed (weighed .divert))).out.contains .noLiveTicket = true
      ∧ (closeTicket 1 .complied ((bayed (weighed .divert)).addTicket { weighed .divert with handle := 2 })).out.contains
          .noLiveTicket = false := by decide +kernel

/-! ## Witnesses: account, lines -/

theorem test_witness_lawful_span :
    (site.spanRec 0).Lawful ∧ (site.spanRec 0).admits 8000 = true ∧ (site.spanRec 0).massLimit ≤ 8000
      ∧ (site.spanRec 0).unforcedMass ≤ 1000 ∧ (site.spanRec 0).countLimit ≤ 4 ∧ (site.spanRec 0).unforcedCount ≤ 1 := by
  unfold SpanRec.Lawful; decide +kernel
theorem test_witness_escort_span :
    (site.spanRec 0).admitsEscort 8000 = true ∧ (site.spanRec 0).unforcedMass = 0
      ∧ ((site.spanRec 0).placeForced 3000).admitsEscort 5000 = true := by decide +kernel

/-- Span 1 with an unforced claim of 5000. -/
def claimed : State := site.updSpan 0 fun r => r.place 5000

theorem test_witness_mass_limit :
    claimed.part.state ≠ .unconfigured ∧ 4999 < (claimed.spanRec 0).massLimit
      ∧ 4999 < (claimed.spanRec 0).mass - (claimed.spanRec 0).forcedMass - (claimed.spanRec 0).presumed
      ∧ (claimed.spanRec 0).mass - (claimed.spanRec 0).forcedMass - (claimed.spanRec 0).presumed ≤ 5000
      ∧ (claimed.spanRec 0).massLimit ≤ 8000 ∧ State.reset.part.state = .unconfigured := by decide +kernel
theorem test_witness_limits_in_each_state :
    clearing.part.state = .clearing ∧ (0 : SpanNo).val < clearing.profile.spanCount ∧ clearing.part.state ≠ .unconfigured
      ∧ (claimed.spanRec 0).countLimit ≤ 4 ∧ 1 < (claimed.spanRec 0).countLimit
      ∧ (claimed.spanRec 0).count - (claimed.spanRec 0).forcedCount ≤ 1
      ∧ 0 < (claimed.spanRec 0).count - (claimed.spanRec 0).forcedCount := by decide +kernel
theorem test_witness_edges :
    site.inReset = false ∧ ((lineIs .absent).line 0).state = .absent ∧ ((lineIs .confirming).line 0).state = .confirming
      ∧ ((lineIs .present).line 0).state = .present ∧ ((lineIs .stuck).line 0).state = .stuck
      ∧ ((lineIs .stuck).line 0).point = some ⟨.A, .gantry 0⟩ := by decide +kernel
theorem test_witness_line_dues :
    hasCome (lineIs .confirming).now 100000 = true ∧ ((lineIs .confirming).line 0).confirmDue = some 100000
      ∧ (lineIs .confirming).part.state ≠ .unconfigured ∧ (site.line 0).point = none
      ∧ ((lineIs .present).line 0).stuckDue = some 100000 := by decide +kernel

/-- An UNUSED line in a state. -/
def unusedLine (x : LineState) : State := (lineIs x).updLine 0 fun r => { r with point := none }

theorem test_witness_unused_line :
    (unusedLine .stuck).inReset = false ∧ ((unusedLine .stuck).line 0).state = .stuck
      ∧ ((unusedLine .stuck).line 0).point = none ∧ ((unusedLine .present).line 0).state = .present
      ∧ ((unusedLine .present).line 0).stuckDue = some 100000 ∧ ((unusedLine .present).line 0).point = none
      ∧ hasCome (unusedLine .present).now 100000 = true := by decide +kernel
theorem test_unused_line_reports_to_no_approach :
    (nextOf (exec (.stuckDue 0) (unusedLine .present))).map State.modes = some site.modes
      ∧ (nextOf (exec (.trailingEdge 0) (unusedLine .stuck))).map State.modes = some site.modes := by decide +kernel

/-! ## Witnesses: tracking, admission -/

/-- A BAYED ticket of decision HOLD. -/
def inBay : Ticket := { weighed .hold with state := .bayed }

/-- A WATCHED ticket, with flags. -/
def watched (fs : List TicketFlag) : State :=
  let t : Ticket := ({ weighed .divert with state := .watched } : Ticket).flagAll fs
  (site.addTicket t).updPlaces .A fun p => { p with watch := [1] }

theorem test_witness_gantry :
    (∀ d ∈ [Decision.pass, .hold, .divert], (queued (weighed d)).laneHead .A 0 = some 1
        ∧ (queued (weighed d)).ticket 1 = some (weighed d) ∧ (weighed d).approach = .A)
      ∧ (queued (weighed .pass)).laneHead .A 1 = none ∧ (queued (weighed .pass)).oldestNearing .A = some 1
      ∧ DueComes (due (weighed .pass) .gantryDue) .gantryDue ⟨100000, 1, .gantryDue⟩ [] (weighed .pass)
      ∧ (weighed .pass).lane = some 0 := by decide +kernel
theorem test_witness_confirmed_proceed :
    (((queued (weighed .pass)).setLane .A 0 { laneReset with confirmed := some .proceed }).lane .A 0).confirmed
        = some .proceed
      ∧ ((queued (weighed .pass)).lane .A 0).confirmed ≠ some .proceed := by decide +kernel
theorem test_witness_bay_signal :
    0 < site.profile.bayCapacity.get .A ∧ ¬ 0 < site.profile.bayCapacity.get .B ∧ site.signal .A = .idle
      ∧ ∀ x ∈ [ReleaseKind.viaduct, .divert],
        (site.setSignal .A (.releasing 1 x)).signal .A = .releasing 1 x
          ∧ 0 < (site.setSignal .A (.releasing 1 x)).profile.bayCapacity.get .A := by decide +kernel
theorem test_witness_strays :
    (∀ j : LaneNo, site.laneList .A j = []) ∧ (site.places .A).leaving = none := by decide +kernel
theorem test_witness_bay_exit :
    ((leaving (weighed .pass)).places .A).leaving = some 1 ∧ (leaving (weighed .pass)).ticket 1 = some (weighed .pass)
      ∧ (weighed .divert).decision ≠ some .pass
      ∧ DueComes (due (weighed .divert) .releaseDue) .releaseDue ⟨100000, 1, .releaseDue⟩ [] (weighed .divert) := by
  decide +kernel
theorem test_witness_emptied_slot :
    (site.hold .A).bay.head? = none ∧ ((bayed inBay).hold .A).bay.head? = some 1
      ∧ (bayed inBay).ticket 1 = some inBay ∧ inBay.has .overdue = false ∧ inBay.approach = .A
      ∧ (bayed (inBay.flag .overdue)).ticket 1 = some (inBay.flag .overdue)
      ∧ (inBay.flag .overdue).has .overdue = true ∧ 0 < site.profile.bayCapacity.get .A
      ∧ ¬ 0 < site.profile.bayCapacity.get .B := by decide +kernel
theorem test_witness_entry :
    ((running (weighed .pass)).places .A).run.head? = some 1 ∧ (running (weighed .pass)).ticket 1 = some (weighed .pass)
      ∧ DueComes ((due (weighed .pass) .entryDue).putCause .A .detectorFault) .entryDue ⟨100000, 1, .entryDue⟩ []
          (weighed .pass)
      ∧ (weighed .pass).origin ≠ .escort
      ∧ ((due (weighed .pass) .entryDue).putCause .A .detectorFault).holds .A .detectorFault = true := by decide +kernel
theorem test_witness_entry_of_leaving_and_nearing :
    ((leaving (weighed .pass)).places .A).run = [] ∧ ((leaving (weighed .pass)).places .A).leaving = some 1
      ∧ ((queued (weighed .pass)).places .A).run = [] ∧ ((queued (weighed .pass)).places .A).leaving = none
      ∧ 1 ∈ (queued (weighed .pass)).laneList .A 0 ∧ (queued (weighed .pass)).ticket 1 = some (weighed .pass)
      ∧ (weighed .pass).decision = some .pass
      ∧ (∀ g ∈ (queued (weighed .pass)).laneList .A 0, g = 1) ∧ (∀ l ∈ [1, 2], (queued (weighed .pass)).laneList .A l = [])
      := by decide +kernel

/-- Two NEARING tickets of A with decision PASS and one weigh time, on lanes 2 and 1. -/
def tied : State :=
  let second : Ticket := { weighed .pass with handle := 2, lane := some 1 }
  ((site.addTicket (weighed .pass)).addTicket second).updPlaces .A fun p =>
    { p with lanes := upd (upd p.lanes 0 fun _ => [1]) 1 fun _ => [2] }

theorem test_witness_cross_lane :
    let swapped := tied.updPlaces .A fun p => { p with lanes := upd (upd p.lanes 0 fun _ => [2]) 1 fun _ => [1] }
    let late : State := { swapped with table := { swapped.table with tickets := swapped.table.tickets.map fun t =>
      if t.handle = 1 then { t with weighTime := some 98999 } else t } }
    tied.laneHead .A 2 = none ∧ ([0, 1, 2] : List LaneNo).filterMap (fun j => tied.laneHead .A j) = [] ++ 1 :: [2]
      ∧ tied.ticket 1 = some (weighed .pass) ∧ earlier 99000 99000 = false
      ∧ late.laneHead .A 2 = none ∧ ([0, 1, 2] : List LaneNo).filterMap (fun j => late.laneHead .A j) = [2] ++ 1 :: []
      ∧ earlier (late.weighTimeOf 1) (late.weighTimeOf 2) = true ∧ (late.ticket 1).isSome = true := by decide +kernel
theorem test_witness_entry_of_a_tie :
    (tied.places .A).run = [] ∧ (tied.places .A).leaving = none
      ∧ tied.laneList .A 0 ++ tied.laneList .A 1 ++ tied.laneList .A 2 = [] ++ 1 :: [2]
      ∧ tied.ticket 1 = some (weighed .pass) ∧ (tied.ticket 2).bind Ticket.weighTime = some 99000
      ∧ earlier 99000 99000 = false := by decide +kernel
theorem test_witness_entry_of_the_earlier :
    let s := tied.updPlaces .A fun p => { p with lanes := upd (upd p.lanes 0 fun _ => [2]) 1 fun _ => [1] }
    let t : State := { s with table := { s.table with tickets := s.table.tickets.map fun t =>
      if t.handle = 1 then { t with weighTime := some 98999 } else t } }
    t.laneList .A 0 ++ t.laneList .A 1 ++ t.laneList .A 2 = [2] ++ 1 :: [] ∧ earlier 98999 99000 = true
      ∧ (t.ticket 1).bind Ticket.weighTime = some 98999 ∧ (t.ticket 2).bind Ticket.weighTime = some 99000 := by
  decide +kernel
theorem test_witness_entry_of_watched :
    (∀ fs ∈ [[], [TicketFlag.countermanded]], ((watched fs).places .A).run = [] ∧ ((watched fs).places .A).leaving = none
        ∧ (∀ l : LaneNo, (watched fs).laneList .A l = []) ∧ ((watched fs).places .A).watch.head? = some 1
        ∧ ((watched fs).ticket 1).isSome = true)
      ∧ (((watched []).ticket 1).any fun t => t.has .countermanded) = false
      ∧ (((watched [.countermanded]).ticket 1).any fun t => t.has .countermanded) = true := by decide +kernel
theorem test_witness_intruder :
    (site.places .A).run = [] ∧ (site.places .A).leaving = none ∧ (∀ l : LaneNo, site.laneList .A l = [])
      ∧ (site.places .A).watch = [] ∧ site.lowestFree = some 1 ∧ (crowded 60).lowestFree = none
      ∧ ((crowded 60).places .A).run = [] := by decide +kernel
theorem test_witness_intruder_past_others :
    ((leaving (weighed .divert)).places .A).leaving = some 1 ∧ (leaving (weighed .divert)).ticket 1 = some (weighed .divert)
      ∧ (weighed .divert).decision ≠ some .pass ∧ 1 ∈ (queued (weighed .hold)).laneList .A 0
      ∧ (queued (weighed .hold)).ticket 1 = some (weighed .hold) ∧ (weighed .hold).decision ≠ some .pass
      ∧ ((queued (weighed .hold)).places .A).watch = []
      ∧ site.holds .A .overload = false ∧ (site.putCause .A .overload).holds .A .overload = true := by decide +kernel

/-- A ticket on span 1. -/
def onSpan1 (t : Ticket) : State :=
  (site.addTicket t).updPlaces .A fun p => { p with spans := upd p.spans 0 fun _ => [t.handle] }

theorem test_witness_boundary :
    (∀ t ∈ [stalled, { stalled with flags := 0 }],
        ((((onSpan1 t).spansBackFrom .A 0).flatMap fun i => ((onSpan1 t).places .A).spans.get i).head? = some 1)
          ∧ (onSpan1 t).ticket 1 = some t ∧ t.approach = .A ∧ t.span = some 0)
      ∧ stalled.has .stalled = true ∧ ({ stalled with flags := 0 } : Ticket).has .stalled = false
      ∧ (site.spansBackFrom .A 0).flatMap (fun i => (site.places .A).spans.get i) = [] ∧ site.part.state ≠ .clearing
      ∧ (clearing.spansBackFrom .A 0).flatMap (fun i => (clearing.places .A).spans.get i) = []
      ∧ clearing.part.state = .clearing := by decide +kernel
theorem test_witness_exit_stray :
    (site.spansBackFrom .A (site.lastSpan .A)).flatMap (fun i => (site.places .A).spans.get i) = [] := by decide +kernel
theorem test_witness_exit :
    (((onSpan2 stalled).spansBackFrom .A ((onSpan2 stalled).lastSpan .A)).flatMap fun i =>
        ((onSpan2 stalled).places .A).spans.get i).head? = some 1
      ∧ (onSpan2 stalled).ticket 1 = some stalled := by decide +kernel
theorem test_witness_span_due :
    DueComes (due stalled .spanDue) .spanDue ⟨100000, 1, .spanDue⟩ [] stalled := by decide +kernel

theorem test_witness_bay_limit :
    DueComes ((bayed inBay).setDue 1 .bayLimit 100000) .bayLimit ⟨100000, 1, .bayLimit⟩ [] inBay
      ∧ (((bayed inBay).setDue 1 .bayLimit 100000).hold .A).bay.head? = some 1
      ∧ ((bayed inBay).setDue 1 .bayLimit 100000).signal .A = .idle
      ∧ ((bayed inBay).setSignal .A (.releasing 2 .viaduct)).signal .A ≠ .idle := by decide +kernel

/-- A BAYED head on A, the turn with A, and little room on the viaduct. -/
def offering (massLimit skip : Nat) : State :=
  ({ bayed inBay with account := site.account.map fun r => { r with massLimit := massLimit } } : State).setSkip .A skip

theorem test_witness_arbiter :
    (offering 8000 0).admission.turn = .A ∧ (offering 8000 0).offers .A = some inBay ∧ (offering 8000 0).fits 1300 = true
      ∧ (offering 1299 0).offers .A = some inBay ∧ (offering 1299 0).fits 1300 = false
      ∧ (offering 1299 0).admission.skip.get .A < (offering 1299 0).profile.skipLimit
      ∧ (offering 1299 3).profile.skipLimit ≤ (offering 1299 3).admission.skip.get .A
      ∧ (offering 8000 0).offers .B = none ∧ ((offering 8000 0).setTurn .B).offers .A = some inBay := by decide +kernel
theorem test_witness_nothing_offered :
    (offering 8000 0).admission.escortSlot = none ∧ (offering 8000 0).escortHoldsClaims = false
      ∧ ((offering 8000 0).setTurn .B).offers .B = none ∧ ((offering 8000 0).setTurn .B).fits 1300 = true
      ∧ site.offers .A = none ∧ site.offers .B = none := by decide +kernel

/-- An escort of A in the escort slot. -/
def waitingEscort : State :=
  let s := site.addTicket escorted
  { s with admission := { s.admission with escortSlot := some 1 } }

theorem test_witness_escort_in_a_pass :
    waitingEscort.admission.escortSlot = some 1 ∧ waitingEscort.ticket 1 = some escorted
      ∧ (waitingEscort.mode .A).causes = 0 ∧ waitingEscort.fitsEscort 1300 = true ∧ escorted.mass = 1300
      ∧ (waitingEscort.updSpan 0 fun r => r.place 1).fitsEscort 1300 = false
      ∧ (site.addTicket { escorted with state := .runningIn, claims := 3 }).escortHoldsClaims = true := by decide +kernel

/-- Heads of both approaches: one of 1300 on A, with the turn, and one of 600 on B, open too. -/
def bothOffer : State :=
  let small : Ticket := { inBay with handle := 2, approach := .B, mass := 600 }
  let s := ((offering 1299 0).addTicket small).setHold .B { bay := [2], nearing := [] }
  { s with modes := ⟨s.modes.A, { s.modes.B with causes := 0 }⟩ }

theorem test_witness_skip :
    bothOffer.offers .A = some inBay ∧ bothOffer.fits 1300 = false
      ∧ bothOffer.offers .B = some { inBay with handle := 2, approach := .B, mass := 600 }
      ∧ bothOffer.fits 600 = true := by decide +kernel
theorem test_witness_grant :
    (bayed inBay).ticket inBay.handle = some inBay ∧ inBay.state = .bayed
      ∧ (queued (weighed .hold)).ticket (weighed .hold).handle = some (weighed .hold)
      ∧ (weighed .hold).state = .nearing ∧ waitingEscort.ticket escorted.handle = some escorted
      ∧ waitingEscort.centreLive = true ∧ waitingEscort.hasRoom waitingEscort.centreLink = true
      ∧ (waitingEscort.setEntry 0 0 (.bound .centre .silent)).centreLive = false
      ∧ full.centreLive = true ∧ full.hasRoom full.centreLink = false := by decide +kernel
theorem test_witness_granted_heads :
    ((bayed inBay).hold .A).bay.head? = some inBay.handle ∧ inBay.handle ∉ ((bayed inBay).hold .A).nearing
      ∧ (((queued (weighed .hold)).setHold .A { bay := [], nearing := [1] }).hold .A).bay = []
      ∧ (((queued (weighed .hold)).setHold .A { bay := [], nearing := [1] }).hold .A).nearing.head?
          = some (weighed .hold).handle := by decide +kernel
theorem test_granted_head_loses_its_skips :
    (grantHead inBay ((bayed inBay).setSkip .A 2)).st.admission.skip.get .A = 0
      ∧ (grantHead { weighed .hold with handle := 2 } (((bayed inBay).setHold .A { bay := [1], nearing := [2] }).setSkip .A
          2)).st.admission.skip.get .A = 2 := by decide +kernel
theorem test_witness_demotion :
    (queued (weighed .pass)).ticket 1 = some (weighed .pass) ∧ (weighed .pass).state = .nearing
      ∧ (weighed .pass).decision = some .pass ∧ ¬ ((weighed .hold).decision = some .pass)
      ∧ ((queued (weighed .pass)).hold .A).bay.length + ((queued (weighed .pass)).hold .A).nearing.length
          < (queued (weighed .pass)).profile.bayCapacity.get .A
      ∧ ¬ 0 < site.profile.bayCapacity.get .B := by decide +kernel

/-- The orders that wait on link 1, by code and first payload byte. -/
def orders (s : State) : List (Byte × Byte) := (s.link 1).queue.map fun x => (x.code, x.payload.getD 0 0)

/-- Approach A with every record IDLE: lane 1 headed by a HOLD, the head of the hold queue; the leaving slot filled. -/
def emptying : State :=
  let left : Ticket := { weighed .divert with handle := 2, state := .leavingBay }
  let signal : BaySignal := .releasing 2 .divert
  let calm : State := { site with aspects := ⟨AspectSet.reset, AspectSet.reset⟩ }
  calm.setLane .A 0 { laneReset with wanted := .toBay } |>.setBay .A { bayReset with wanted := .releaseDivert }
    |>.addTicket { weighed .hold with weighTime := some 80000 } |>.addTicket left |>.setSignal .A signal
    |>.setHold .A { bay := [], nearing := [1] }
    |>.updPlaces .A fun p => { p with lanes := upd p.lanes 0 fun _ => [1], leaving := some 2 }

/-- R111: the promoted head's lane is ordered before the bay signal, though the bay signal's HOLD was wanted first. -/
theorem test_lane_is_ordered_before_the_bay_signal :
    orders (settle (deliver ⟨.A, .bayExit⟩ 100000 emptying)) = [(0x20, 1), (0x21, 0)]
      ∧ (act (.leavingEmpty .A) emptying).out = [.attemptBay .A .hold 0, .arbiter] := by decide +kernel

/-- As `emptying`, with a late PASS at the head of lane 2, which claims all that lane 1's head needs. -/
def demoting : State :=
  let late : Ticket := { weighed .pass with
    handle := 3, lane := some 1, weighTime := some 86000, speed := some 1500, claims := 3 }
  ({ (emptying.addTicket late).updPlaces .A fun p => { p with lanes := upd p.lanes 1 fun _ => [3] } with
    account := emptying.account.map fun r => { r.place 1300 with massLimit := 2000 } } : State)

/-- R111: a demoted head's lane 2 is ordered after lane 1, whose head the demotion's release promotes. -/
theorem test_lane_1_is_ordered_before_a_demoted_lane_2 :
    orders (settle (deriveLane .A 1 demoting)) = [(0x20, 1), (0x20, 2)]
      ∧ (act (.demote 3) demoting).out = [.deriveLane .A 1, .arbiter] := by decide +kernel

/-- An ESCORT's payload: approach A, 72.0 km/h, two axles of 600 and 700. -/
def escortRequest : List Byte := [0, 2, 208, 2, 2, 88, 2, 188]

theorem test_witness_escort :
    CentreAsks site (fr escortRequest) (.live 2000)
      ∧ okOf (site.checkEscort (fr escortRequest).payload) = some ⟨.A, 720, [600, 700]⟩ ∧ site.ordinaryHandle 2 = some 1
      ∧ errorOf (State.reset.checkEscort (fr escortRequest).payload) = some .wrongState
      ∧ okOf ((crowded 56).checkEscort (fr escortRequest).payload) = some ⟨.A, 720, [600, 700]⟩
      ∧ (crowded 56).ordinaryHandle 2 = none := by decide +kernel
theorem test_escort_stands_when_its_answer_is_dropped :
    CentreAsks full (fr escortRequest) (.live 2000)
      ∧ okOf (full.checkEscort (fr escortRequest).payload) = some ⟨.A, 720, [600, 700]⟩ ∧ full.ordinaryHandle 2 = some 1
      ∧ (nextOf (exec (.escort 0 (fr escortRequest)) full)).map
          (fun t => ((t.ticket 1).isSome, t.centre.summary.getLsbD Event.linkError.index)) = some (true, true) := by
  decide +kernel
/-- CLOSE_LOST names the closed ticket, and the escort slot is emptied of it. -/
theorem test_closing_at_a_full_close_queue :
    let lost : State := { waitingEscort with table := { waitingEscort.table with
      closeQueue := List.replicate Config.closeQueueSize ((weighed .pass).summary .crossed 100000) } }
    let e := closeTicket 1 .lapsed lost
    ¬ lost.table.closeQueue.length < Config.closeQueueSize ∧ lost.ticket 1 = some escorted
      ∧ e.st.admission.escortSlot = none ∧ e.st.table.closeLost = 1
      ∧ e.st.centre.summary = BitVec.twoPow 12 Event.closeLost.index
      ∧ (e.st.link 0).queue.map TxFrame.payload
        = [one (Event.closeLost.index + 1) ++ one 0 ++ one 0 ++ one 1 ++ timeBytes 100000] := by decide +kernel
theorem test_witness_escort_checks :
    State.reset.part.state = .unconfigured ∧ ({ site with part := { site.part with state := .draining } } : State).part.state
        = .draining
      ∧ errorOf (State.reset.checkEscort []) = some .wrongState
      ∧ (∃ t ∈ waitingEscort.table.tickets, t.origin = .escort) ∧ errorOf (waitingEscort.checkEscort []) = some .wrongState
      ∧ (¬ ∃ t ∈ site.table.tickets, t.origin = .escort) := by decide +kernel
theorem test_witness_escort_values :
    (∀ p ∈ [[], 2 :: escortRequest.tail, [0, 2, 208, 1, 2, 88], [0, 2, 208, 2, 2, 88, 2], [0, 0, 49, 2, 2, 88, 2, 188],
        [0, 5, 221, 2, 2, 88, 2, 188], [0, 2, 208, 2, 3, 233, 2, 188], [0, 2, 208, 10] ++ List.replicate 20 1],
        errorOf (site.checkEscort p) = some .badValue)
      ∧ site.profile.axleLimit = 1000
      ∧ errorOf ((site.updSpan 1 fun r => { r with massLimit := 1299 }).checkEscort escortRequest) = some .badValue
      ∧ okOf ((site.updSpan 1 fun r => { r with massLimit := 1300 }).checkEscort escortRequest) = some ⟨.A, 720, [600, 700]⟩
      ∧ okOf ((site.updSpan 2 fun r => { r with massLimit := 0 }).checkEscort escortRequest) = some ⟨.A, 720, [600, 700]⟩
      ∧ okOf (site.checkEscort [1, 0, 50, 2, 3, 232, 2, 188]) = some ⟨.B, 50, [1000, 700]⟩
      ∧ okOf (site.checkEscort ([1, 5, 220, 9] ++ List.replicate 18 1)) = some ⟨.B, 1500, List.replicate 9 257⟩ := by
  decide +kernel

/-! ## Witnesses: modes -/

theorem test_witness_causes :
    (site.mode .A).causes = 0 ∧ site.holds .B .centreOrder = true ∧ site.holds .B .overload = false
      ∧ (site.mode .B).causes ≠ 0 ∧ (site.mode .B).causes = BitVec.twoPow 8 Cause.centreOrder.index
      ∧ State.reset.holds .A .partState = true
      ∧ (State.reset.mode .A).causes &&& ~~~(BitVec.twoPow 8 Cause.partState.index) ≠ 0 := by decide +kernel
theorem test_restriction_diverts_every_lane :
    let t := (act (.addCause .A .gantryFault) (queued (weighed .pass))).st
    (t.lane .A 0).wanted = .divert ∧ (t.lane .A 1).wanted = .divert ∧ t.centre.summary.getLsbD Event.gantryFault.index = true
      ∧ (act (.removeCause .A .gantryFault) t).st.centre = t.centre := by decide +kernel
theorem test_overload_is_shared :
    ∀ a ∈ [Approach.A, .B], (act .overloaded site).st.holds a .overload = true := by decide +kernel
theorem test_witness_set_approach :
    CentreAsks State.reset (fr [0, 1]) (.live 2000) ∧ CentreAsks State.reset (fr [1, 0]) (.live 2000)
      ∧ (State.reset.mode .A).causes &&& ~~~(0x02#8) ≠ 0 ∧ (State.reset.mode .B).causes &&& ~~~(0x02#8) ≠ 0 := by
  decide +kernel
theorem test_witness_set_approach_refused :
    (∀ p ∈ [[], [2, 0], [0, 2]], CentreAsks site (fr p) (.live 2000)) ∧ ([] : List Byte).length ≠ 2
      ∧ 1 < byteAt [2, 0] 0 ∧ 1 < byteAt [0, 2] 1 := by decide +kernel

/-- Both approaches under OVERLOAD and PART_STATE. -/
def overloaded (isOver : Bool) : State :=
  { site with
    modes := ⟨{ site.modes.A with causes := 0x81 }, { site.modes.B with causes := 0x81 }⟩,
    account := site.account.map fun r => { r with overloaded := isOver } }

theorem test_witness_acknowledge :
    CentreAsks (overloaded true) (fr []) (.live 2000)
      ∧ (∀ a ∈ [Approach.A, .B], ((overloaded true).mode a).causes.getLsbD 7 = true
          ∧ ((overloaded true).mode a).causes &&& ~~~(0x80#8) ≠ 0)
      ∧ (0 : SpanNo).val < (overloaded true).profile.spanCount ∧ ((overloaded true).spanRec 0).overloaded = true
      ∧ (∀ i : SpanNo, ((overloaded false).spanRec i).overloaded = false)
      ∧ (site.mode .A).causes.getLsbD 7 = false ∧ (site.mode .B).causes.getLsbD 7 = false := by decide +kernel

/-- WEIGH_LOSS on A, beside PART_STATE, until now. -/
def losing : State := site.updMode .A fun m => { m with causes := 0x09, lossUntil := some 100000 }

theorem test_witness_loss_until :
    losing.inReset = false ∧ (losing.mode .A).lossUntil = some 100000 ∧ hasCome losing.now 100000 = true
      ∧ (losing.mode .A).causes.getLsbD 3 = true ∧ (losing.mode .A).causes &&& ~~~(0x08#8) ≠ 0 := by decide +kernel
theorem test_witness_weigh_loss :
    losing.holds .A .weighLoss = true ∧ (losing.mode .A).lossUntil = some 100000 ∧ site.holds .A .weighLoss = false
      ∧ (losing.updMode .A fun m => { m with lossUntil := none }).holds .A .weighLoss = true
      ∧ 8 ≤ 60 - (crowded 52).table.tickets.length ∧ 12 ≤ (crowded 52).table.freeCells
      ∧ 60 - (crowded 53).table.tickets.length < 8 := by decide +kernel

/-! ## Witnesses: centre services, profile, resets -/

theorem test_witness_queries :
    (∀ p ∈ [[], [0], [1], [3], [4], [5], [19], [20], [0, 0], [1, 1], [1, 2], [1, 3], [0, 1], [4, 1], [0, 5]],
        CentreAsks site (fr p) (.live 2000))
      ∧ site.entry 1 2 = .unbound ∧ site.entry 1 0 = .bound (.weigh .A 3) (.live 102000)
      ∧ site.entry 1 1 = .bound (.gantry .A) (.live 102000) ∧ site.entry 0 0 = .bound .centre (.live 2000)
      ∧ (due (weighed .divert) .watchEnd).ticket 1 = some (weighed .divert)
      ∧ (due (weighed .divert) .watchEnd).dueOf 1 = some ⟨100000, 1, .watchEnd⟩ ∧ site.ticket 1 = none
      ∧ itemOf 1 0 = some .spanCount ∧ itemOf 0 0 = none ∧ itemOf 31 0 = some .escortWaitLimit := by decide +kernel
theorem test_witness_ticket_without_due :
    CentreAsks (onSpan2 stalled) (fr [1]) (.live 2000) ∧ (onSpan2 stalled).ticket 1 = some stalled
      ∧ (onSpan2 stalled).dueOf 1 = none := by decide +kernel
theorem test_witness_collect :
    CentreAsks { site with table := { site.table with closeQueue := [(weighed .pass).summary .crossed 100000] } } (fr [])
        (.live 2000)
      ∧ site.table.closeQueue = [] ∧ CentreAsks site (fr [15, 255]) (.live 2000)
      ∧ CentreAsks site (fr [16, 0]) (.live 2000) := by decide +kernel

theorem test_collected_summary_is_lost_with_its_answer :
    let s : State := { full with table := { full.table with closeQueue := [(weighed .pass).summary .crossed 100000] } }
    CentreAsks s (fr []) (.live 2000) ∧ s.hasRoom s.centreLink = false
      ∧ (nextOf (exec (.collectClose 0 (fr [])) s)).map (fun t => (t.table.closeQueue, (t.link 0).queue.length))
        = some ([], 16) := by decide +kernel

/-- A part whose report due has come. -/
def reporting : State := { site with centre := { site.centre with reportDue := some 100000 } }

theorem test_witness_report :
    reporting.inReset = false ∧ reporting.centre.reportDue = some 100000 ∧ hasCome reporting.now 100000 = true
      ∧ reporting.centreLive = true ∧ reporting.hasRoom reporting.centreLink = true
      ∧ (reporting.setEntry 0 0 (.bound .centre .silent)).centreLive = false
      ∧ full.centreLive = true ∧ full.hasRoom full.centreLink = false := by decide +kernel
theorem test_witness_set_item :
    CentreAsks site (fr [14, 0, 0, 0, 4, 126]) (.live 2000)
      ∧ okOf (site.checkSet (fr [14, 0, 0, 0, 4, 126]).payload) = some (.axleLimit, 1150)
      ∧ errorOf (site.checkSet (fr [1, 0, 0, 0, 0, 1]).payload) = some .wrongState
      ∧ errorOf (site.checkSet (fr [14, 0, 0, 0, 0, 99]).payload) = some .badValue
      ∧ okOf (State.reset.checkSet (fr [8, 19, 0, 1, 4, 3]).payload) = some (.lineAssign 19, 0x010403) := by decide +kernel
theorem test_witness_item_numbers :
    itemOf 2 4 = some (.spanLength 3) ∧ itemOf 2 0 = none ∧ itemOf 2 5 = none ∧ itemOf 1 1 = none
      ∧ itemOf 8 19 = some (.lineAssign 19)
      ∧ itemOf 8 20 = none ∧ itemOf 32 0 = none ∧ itemOf 4 2 = none
      ∧ (Item.spanLength 3).numbered = (2, 4) ∧ (Item.lineAssign 19).numbered = (8, 19) := by decide +kernel
theorem test_witness_item_checks :
    (∀ p ∈ [[], [14, 0, 0, 0, 4], [14, 1, 0, 0, 4, 126], [0, 0, 0, 0, 0, 1], [32, 0, 0, 0, 0, 1]],
        errorOf (site.checkSet p) = some .badValue)
      ∧ errorOf (site.checkSet [11, 0, 0, 0, 0, 0]) = some .wrongState
      ∧ errorOf (site.checkSet [12, 1, 0, 0, 3, 231]) = some .badValue
      ∧ okOf (site.checkSet [12, 1, 0, 0, 3, 232]) = some (.spanLimit 0, 1000)
      ∧ errorOf (State.reset.checkSet [11, 0, 0, 0, 3, 231]) = some .badValue
      ∧ okOf (State.reset.checkSet [11, 0, 0, 0, 3, 232]) = some (.intruderMass, 1000)
      ∧ errorOf (State.reset.checkSet [8, 0, 0, 0, 1, 0]) = some .badValue
      ∧ errorOf (State.reset.checkSet [8, 0, 0, 0, 2, 1]) = some .badValue
      ∧ errorOf (State.reset.checkSet [8, 0, 0, 2, 3, 0]) = some .badValue
      ∧ errorOf (site.checkSet [29, 0, 0, 0, 1, 245]) = some .badValue := by decide +kernel
theorem test_witness_items_with_effects :
    (∀ p ∈ [[3, 0, 0, 0, 0, 3], [4, 0, 0, 0, 0, 6], [8, 0, 0, 0, 3, 0], [9, 0, 0, 0, 0, 1], [12, 1, 0, 0, 0x1F, 0x40],
        [13, 1, 0, 0, 0, 4], [29, 0, 0, 0, 1, 244]], CentreAsks State.reset (fr p) (.live 2000))
      ∧ okOf (State.reset.checkSet [3, 0, 0, 0, 0, 3]) = some (.lanes .A, 3) ∧ State.reset.profile.lanes.get .A ≠ 3
      ∧ okOf (State.reset.checkSet [4, 0, 0, 0, 0, 6]) = some (.bayCapacity .A, 6)
      ∧ State.reset.profile.bayCapacity.get .A = 0 ∧ State.reset.signal .A = .idle
      ∧ okOf (State.reset.checkSet [8, 0, 0, 0, 3, 0]) = some (.lineAssign 0, 0x000300)
      ∧ assignmentOf 0x000300 = some (some ⟨.A, .entry⟩) ∧ (State.reset.line 0).point ≠ some ⟨.A, .entry⟩
      ∧ okOf (State.reset.checkSet [9, 0, 0, 0, 0, 1]) = some (.linePolarity 0, 1) ∧ (State.reset.line 0).polarity ≠ .low
      ∧ okOf (State.reset.checkSet [12, 1, 0, 0, 0x1F, 0x40]) = some (.spanLimit 0, 8000)
      ∧ okOf (State.reset.checkSet [13, 1, 0, 0, 0, 4]) = some (.spanCountLimit 0, 4)
      ∧ okOf (State.reset.checkSet [29, 0, 0, 0, 1, 244]) = some (.reportPeriod, 500)
      ∧ State.reset.profile.reportPeriod ≠ 500 := by decide +kernel

/-- A line in UNCONFIGURED, on a point, whose pin is at a level. -/
def unconfiguredLine (x : LineState) (pt : Option Point) (level : Bool) : State :=
  State.reset.updLine 0 fun r => { r with state := x, point := pt, level := level }

theorem test_witness_item_cases :
    okOf (State.reset.checkSet [3, 0, 0, 0, 0, 1]) = some (.lanes .A, 1) ∧ State.reset.itemValue (.lanes .A) = 1
      ∧ ({ State.reset with profile := { State.reset.profile with lanes := ⟨2, 1⟩ } } : State).profile.lanes.get .A ≠ 1
      ∧ (State.reset.lane .A 0).order = .failed ∧ (State.reset.mode .A).causes ≠ 0
      ∧ okOf (State.reset.checkSet [4, 0, 0, 0, 0, 0]) = some (.bayCapacity .A, 0)
      ∧ okOf (State.reset.checkSet [8, 0, 0, 1, 3, 0]) = some (.lineAssign 0, 0x010300)
      ∧ okOf (State.reset.checkSet [8, 0, 0, 0, 0, 0]) = some (.lineAssign 0, 0) ∧ assignmentOf 0 = some none
      ∧ (∀ pt ∈ [none, some ⟨.A, .entry⟩], ∀ x ∈ [LineState.absent, .confirming, .present, .stuck], ∀ b ∈ [false, true],
          ((unconfiguredLine x pt b).line 0).state = x ∧ ((unconfiguredLine x pt b).line 0).point = pt
            ∧ ((unconfiguredLine x pt b).line 0).polarity = .high ∧ ((unconfiguredLine x pt b).line 0).level = b) := by
  decide +kernel

/-- A part whose profile passes: one span, one lane on each approach, no bays. -/
def committable : State :=
  let points : List Point := [⟨.A, .gantry 0⟩, ⟨.A, .entry⟩, ⟨.A, .exit⟩, ⟨.B, .gantry 0⟩, ⟨.B, .entry⟩, ⟨.B, .exit⟩]
  { State.reset with
    profile := { Profile.reset with
      spanLength := #v[40, 0, 0, 0], spanLimit := #v[8000, 0, 0, 0], distWeighGantry := ⟨600, 600⟩,
      distGantryEntry := ⟨200, 200⟩ },
    lines := Vector.ofFn fun d => { LineRec.reset false with point := points[d.val]? } }

theorem test_witness_commit :
    CentreAsks committable (fr []) (.live 2000) ∧ committable.part.state = .unconfigured
      ∧ committable.profileFault = none ∧ State.reset.profileFault = some [2, 1, 0, 0, 0]
      ∧ CentreAsks committable (fr [0]) (.live 2000) ∧ site.part.state ≠ .unconfigured := by decide +kernel
theorem test_witness_profile_faults :
    let profile (f : Profile → Profile) : Option (List Byte) :=
      { committable with profile := f committable.profile }.profileFault
    let line (d : LineNo) (pt : Option Point) : Option (List Byte) :=
      (committable.updLine d fun r => { r with point := pt }).profileFault
    profile (fun p => { p with spanCount := 2 }) = some [2, 2, 0, 0, 0]
      ∧ profile (fun p => { p with spanLimit := #v[0, 0, 0, 0] }) = some [12, 1, 0, 0, 0]
      ∧ profile (fun p => { p with distWeighGantry := ⟨600, 0⟩ }) = some [5, 1, 0, 0, 0]
      ∧ profile (fun p => { p with distGantryEntry := ⟨0, 0⟩ }) = some [6, 0, 0, 0, 0]
      ∧ profile (fun p => { p with bayCapacity := ⟨1, 0⟩ }) = some [7, 0, 0, 0, 0]
      ∧ profile (fun p => { p with lanes := ⟨1, 2⟩ }) = some [8, 255, 1, 1, 2]
      ∧ line 2 none = some [8, 255, 0, 5, 0]
      ∧ line 9 (some ⟨.B, .entry⟩) = some [8, 9, 1, 3, 0]
      ∧ line 9 (some ⟨.A, .bayExit⟩) = some [8, 9, 0, 0, 0] := by decide +kernel

theorem test_witness_clearance :
    clearing.inReset = false ∧ clearing.part.state = .clearing ∧ clearing.part.clearanceDue = some 100000
      ∧ hasCome clearing.now 100000 = true := by decide +kernel
theorem test_witness_reconfigure :
    CentreAsks site (fr []) (.live 2000) ∧ CentreAsks site (fr [0]) (.live 2000) ∧ site.part.state = .running
      ∧ site.admission.escortSlot = none ∧ clearing.part.state ≠ .running ∧ site.part.state ≠ .draining
      ∧ ({ site with part := { site.part with state := .draining } } : State).part.state = .draining := by decide +kernel
theorem test_witness_reconfigure_with_an_escort :
    CentreAsks waitingEscort (fr []) (.live 2000) ∧ waitingEscort.part.state = .running
      ∧ waitingEscort.admission.escortSlot = some 1 ∧ waitingEscort.ticket 1 = some escorted
      ∧ escorted.state = .escortWait := by decide +kernel
theorem test_witness_resets :
    CentreAsks site (fr []) (.live 2000) ∧ site.hasRoom site.centreLink = true ∧ (sending .sending true).inReset = false
      ∧ ((sending .sending true).link 2).lineState = .sending
      ∧ ((sending .sending true).link 2).queue = { txFrame 1 .answer 7 [0] with resetAnswer := true } :: []
      ∧ Arrives full full.centreLink (fr []) 0 ∧ full.entry full.centreLink 0 = .bound .centre (.live 2000)
      ∧ full.hasRoom full.centreLink = false ∧ held.part.held = some .supply := by decide +kernel
theorem test_overlapping_resets_keep_the_strongest :
    (nextOf (exec .lineReset held)).map (fun s => s.part.held) = some (some .supply)
      ∧ (nextOf (exec .supplyReset { held with part := { held.part with held := some .line } })).map (fun s => s.part.held)
        = some (some .supply)
      ∧ (nextOf (exec .lineReset { held with part := { held.part with held := some .command } })).map (fun s => s.part.held)
        = some (some .line) := by decide +kernel
theorem test_witness_received_bytes :
    (Instr.querySpan 2 ⟨4, 9, [3]⟩).wf = true ∧ frameOfCommand (.querySpan 2 ⟨4, 9, [3]⟩) = some (2, 0x41, ⟨4, 9, [3]⟩)
      ∧ encodeCommand (.querySpan 2 ⟨4, 9, [3]⟩) = some (2, frameBytes 0x41 ⟨4, 9, [3]⟩) := by decide +kernel

/-! ## Witnesses: the laws -/

theorem test_witness_pools : PoolsSound site ∧ nextOf (step site) = some site.tick := by
  refine ⟨⟨?_, ?_, ?_⟩, ?_⟩ <;> decide +kernel
theorem test_witness_queues : QueuesBounded site ∧ DuesUnique site ∧ DuesLive site := by
  refine ⟨⟨?_, ?_⟩, ?_, ?_⟩ <;> first | decide +kernel | exact List.nodup_nil | exact fun d h => nomatch h
theorem test_witness_lines : LinesGuarded site := by
  intro a; cases a <;> decide +kernel
theorem test_witness_part_state : PartStateHeld site ∧ site.part.state = .running := by
  refine ⟨fun h => absurd rfl h, rfl⟩
theorem test_witness_overload_shared : OverloadShared site ∧ OverloadShared (overloaded true) := by
  refine ⟨?_, ?_⟩ <;> unfold OverloadShared <;> decide +kernel

/-- A RUNNING part that has just taken a WEIGH RECORD. -/
def lively : State :=
  let calm : State := { site with aspects := ⟨AspectSet.reset, AspectSet.reset⟩ }
  (nextOf (exec (.weighRecord 1 (fr record)) calm)).getD calm

/-- Its one ticket. -/
def admitted : Ticket := { weighed .pass with claims := 3 }

theorem test_one_ticket : lively.table.tickets = [admitted] ∧ lively.deadlines.length = 1 := by decide +kernel

theorem test_witness_agreement : Agreement lively ∧ nextOf (step lively) = some lively.tick := by
  refine ⟨⟨?_, ?_, ?_, ?_, ?_, ?_, ?_, ?_, ?_, ?_⟩, ?_⟩
  · refine ⟨?_, ?_, ?_⟩ <;> decide +kernel
  · intro a
    have idle : lively.signal .A = .idle ∧ lively.signal .B = .idle := by decide +kernel
    unfold PlacesAgree State.Holding
    cases a <;> simp only [idle] <;> refine ⟨?_, ?_, ?_, ?_, ?_, ?_, ?_, ?_⟩ <;> decide +kernel
  · unfold State.Holding; decide +kernel
  · intro t h
    rw [test_one_ticket.1, List.mem_singleton] at h
    subst h
    refine ⟨⟨?_, ?_⟩, ⟨?_, ?_, ?_, ?_⟩, ?_⟩
    · show admitted.origin = .weighed ∧ admitted.decision ≠ none ∧ admitted.has .overdue = false
        ∧ (admitted.has .countermanded = true → admitted.decision = some .divert)
      decide +kernel
    all_goals decide +kernel
  · refine ⟨?_, ?_⟩
    · unfold DuesUnique; decide +kernel
    · unfold DuesLive; decide +kernel
  · unfold AccountAgrees SpanRec.Lawful; decide +kernel
  · intro a; unfold CountsAgree; cases a <;> decide +kernel
  · decide +kernel
  · decide +kernel
  · decide +kernel
  · decide +kernel

theorem test_profile_in_range : ProfileInRange lively := by
  intro x
  cases x <;> first | decide +kernel | (rename_i a; cases a <;> decide +kernel) | (rename_i i; revert i; decide +kernel)

theorem test_witness_timely : Timely lively ∧ DuesOrdered lively ∧ ListsOrdered lively := by
  refine ⟨⟨?_, ?_, ?_, test_profile_in_range⟩, ?_, ?_⟩
  · unfold Near; decide +kernel
  · intro t h _
    rw [test_one_ticket.1, List.mem_singleton] at h
    subst h
    exact ⟨⟨99000, rfl, by unfold Near; decide +kernel⟩, 720, rfl, by decide⟩
  · unfold Near; decide +kernel
  · unfold DuesOrdered; decide +kernel
  · unfold ListsOrdered; intro _ a; cases a <;> decide +kernel

end Sys2Proof.Tests
end

section
/-! SUPPORT. The laws of approach mode control (R124, R130, R133): what a transition and its reports can do to the
causes, the divert-all lines and the part state, and that every step keeps the three laws. -/

namespace Sys2Proof.Machine

/-! ## Settling, from a report on -/

/-- A property that every report of a class keeps, where what follows from one is of the class, is kept by settling,
however often attempts are still to be made. -/
theorem settleWithin_induct (P : State → Prop) (Q : Signal → Prop)
    (keep : ∀ g s, Q g → P s → P (act g s).st) (closed : ∀ g s, Q g → ∀ g' ∈ (act g s).out, Q g') (n : Nat) (e : Eff)
    (out : ∀ g ∈ e.out, Q g) (hs : P e.st) : P (settleWithin n e) := by
  induction n generalizing e with
  | zero => exact hs
  | succ n ih =>
    have left : P (relay e).st ∧ ∀ g ∈ (relay e).out, Q g :=
      Eff.each_both P Q (fun g hg s hs => handle_induct P Q keep closed _ g s (out g hg) hs) hs
    have made := Eff.each_both P Q (xs := inAttemptOrder (relay e).out) (f := act)
      (fun g hg s hs => ⟨keep g s (left.2 g (mem_inAttemptOrder hg)) hs, closed g s (left.2 g (mem_inAttemptOrder hg))⟩)
      left.1
    unfold settleWithin
    dsimp only
    split
    · exact left.1
    · exact ih _ made.2 made.1

/-- One transition for each of two lists. -/
theorem Eff.each_append {α : Type} (xs ys : List α) (f : α → State → Eff) (s : State) :
    Eff.each (xs ++ ys) f s = (Eff.each xs f s).bind (Eff.each ys f) := by
  unfold Eff.each
  rw [List.foldl_append, Eff.foldl_bind]
  rfl

/-- A report that turns one property into another, among reports of a class that keeps both: the second holds once all
have been settled. -/
theorem settle_through {e : Eff} {gs gs' : List Signal} {g : Signal} (before then' : State → Prop) (Q : Signal → Prop)
    (keepBefore : ∀ g s, Q g → before s → before (act g s).st) (keepThen : ∀ g s, Q g → then' s → then' (act g s).st)
    (closed : ∀ g s, Q g → ∀ g' ∈ (act g s).out, Q g')
    (turn : ∀ s, before s → then' (act g s).st ∧ ∀ g' ∈ (act g s).out, Q g') (report : g.attempts = none)
    (out : e.out = gs ++ g :: gs') (class1 : ∀ g ∈ gs, Q g) (class2 : ∀ g ∈ gs', Q g) (hs : before e.st) :
    then' (settle e) := by
  have taken : ∀ u, before u →
      then' (handle Config.cascadeDepth g u).st ∧ ∀ g' ∈ (handle Config.cascadeDepth g u).out, Q g' := by
    intro u hu
    rw [cascadeDepth_succ, handle_succ _ _ report]
    obtain ⟨turned, follow⟩ := turn u hu
    exact Eff.each_both then' Q (fun g' hg' s' hs' => handle_induct then' Q keepThen closed _ g' s' (follow g' hg') hs')
      turned
  have first := Eff.each_both before Q (f := handle Config.cascadeDepth)
    (fun g hg s hs => handle_induct before Q keepBefore closed _ g s (class1 g hg) hs) hs
  have middle := taken _ first.1
  have last := Eff.each_both then' Q (f := handle Config.cascadeDepth)
    (fun g hg s hs => handle_induct then' Q keepThen closed _ g s (class2 g hg) hs) middle.1
  have split : relay e = (Eff.each gs (handle Config.cascadeDepth) e.st).bind fun u =>
      (handle Config.cascadeDepth g u).bind (Eff.each gs' (handle Config.cascadeDepth)) := by
    unfold relay
    rw [out, Eff.each_append, funext (Eff.each_cons g gs' (handle Config.cascadeDepth))]
  have left : then' (relay e).st ∧ ∀ g ∈ (relay e).out, Q g := by
    rw [split]
    refine ⟨last.1, fun g hg => ?_⟩
    simp only [Eff.bind_out, List.mem_append] at hg
    exact hg.elim (first.2 g) fun h => h.elim (middle.2 g) (last.2 g)
  have made := Eff.each_both then' Q (xs := inAttemptOrder (relay e).out) (f := act)
    (fun g hg s hs =>
      ⟨keepThen g s (left.2 g (mem_inAttemptOrder hg)) hs, closed g s (left.2 g (mem_inAttemptOrder hg))⟩) left.1
  show then' (settleWithin (1023 + 1) e)
  unfold settleWithin
  dsimp only
  split
  · exact left.1
  · exact settleWithin_induct then' Q keepThen closed _ _ made.2 made.1

/-! ## A cause joins or leaves a set (R123, R131, R132) -/

/-- R123, R131, R133: an approach's modes when a cause has joined its set: the line is asserted if the set was empty. -/
def Mode.joined (m : Mode) (c : Cause) : Mode :=
  { m with causes := withMember m.causes c.index, lineAsserted := m.lineAsserted || decide (m.causes = 0) }

/-- R123, R132, R133: an approach's modes when a cause has left its set: the line is released if the cause was alone in
it, but not in reset. -/
def Mode.parted (m : Mode) (c : Cause) (reset : Bool) : Mode :=
  { m with causes := withoutMember m.causes c.index,
           lineAsserted := if m.causes = BitVec.twoPow 8 c.index then reset else m.lineAsserted }

theorem Cause.index_inj {c d : Cause} : c.index = d.index ↔ c = d := by
  refine ⟨fun h => ?_, fun h => by rw [h]⟩
  revert h
  cases c <;> cases d <;> decide

/-- R123: what a set holds when a cause has joined it. -/
theorem member_joined (m : Mode) (c d : Cause) :
    member (m.joined c).causes d.index = (decide (d = c) || member m.causes d.index) := by
  have bit : decide (c.index = d.index) = decide (d = c) := decide_eq_decide.2 (by rw [Cause.index_inj, eq_comm])
  simp only [member, Mode.joined, withMember, BitVec.getLsbD_or, BitVec.getLsbD_twoPow, c.index_lt, bit, decide_true,
    Bool.true_and]
  exact Bool.or_comm ..

/-- R123: what a set holds when a cause has left it. -/
theorem member_parted (m : Mode) (c d : Cause) (reset : Bool) :
    member (m.parted c reset).causes d.index = (decide (d ≠ c) && member m.causes d.index) := by
  have bit : decide (c.index = d.index) = decide (d = c) := decide_eq_decide.2 (by rw [Cause.index_inj, eq_comm])
  simp only [member, Mode.parted, withoutMember, BitVec.getLsbD_and, BitVec.getLsbD_not, BitVec.getLsbD_twoPow,
    c.index_lt, d.index_lt, bit, decide_true, Bool.true_and, decide_not]
  exact Bool.and_comm ..

/-- R133, for one approach. -/
def Mode.Guarded (m : Mode) (reset : Bool) : Prop := m.lineAsserted = false → reset = false ∧ m.causes = 0

theorem linesGuarded_iff (s : State) : LinesGuarded s ↔ ∀ a, (s.mode a).Guarded s.inReset := Iff.rfl

theorem Mode.Guarded.joined {m : Mode} {reset : Bool} (h : m.Guarded reset) (c : Cause) :
    (m.joined c).Guarded reset := by
  intro released
  obtain ⟨line, held⟩ := Bool.or_eq_false_iff.1 released
  exact absurd (h line).2 (of_decide_eq_false held)

theorem Mode.Guarded.parted {m : Mode} {reset : Bool} (h : m.Guarded reset) (c : Cause) :
    (m.parted c reset).Guarded reset := by
  intro released
  unfold Mode.parted withoutMember at *
  dsimp only at *
  split at released
  · next alone => exact ⟨released, ((alone_iff _ c).2 alone).2⟩
  · obtain ⟨out, empty⟩ := h released
    exact ⟨out, by rw [empty]; exact BitVec.zero_and⟩

/-! ## What the changes of the cause sets do to the modes -/

/-- R131: an approach's entry into DIVERT_ALL asserts its line, and changes no other mode. -/
theorem enterDivertAll_modes (a : Approach) (s : State) :
    (enterDivertAll a s).st.modes = s.modes.set a { s.mode a with lineAsserted := true } := by
  unfold enterDivertAll
  rw [derivedOnly_deriveLanes]
  unfold State.countermand
  rw [setHold_fields]
  rfl

/-- R132: an approach's becoming OPEN releases its line out of reset, and changes no other mode. -/
theorem openApproach_modes (a : Approach) (s : State) :
    (openApproach a s).st.modes = s.modes.set a { s.mode a with lineAsserted := s.inReset } := by
  unfold openApproach
  rw [Eff.emit_st, derivedOnly_deriveLanes]
  rfl

theorem enterDivertAll_part (a : Approach) (s : State) : (enterDivertAll a s).st.part = s.part := by
  unfold enterDivertAll
  rw [derivedOnly_deriveLanes]
  unfold State.countermand
  rw [setHold_fields]
  rfl

theorem openApproach_part (a : Approach) (s : State) : (openApproach a s).st.part = s.part := by
  unfold openApproach
  rw [Eff.emit_st, derivedOnly_deriveLanes]
  rfl

theorem putCause_modes (s : State) (a : Approach) (c : Cause) :
    (s.putCause a c).modes = s.modes.set a { s.mode a with causes := withMember (s.mode a).causes c.index } := by
  rw [putCause_eq]
  cases c <;> simp [withMember]

theorem putCause_part (s : State) (a : Approach) (c : Cause) : (s.putCause a c).part = s.part := by
  rw [putCause_eq]
  cases c <;> simp

/-- R123: a cause that is held already joins nothing. -/
theorem joined_of_held {s : State} {a : Approach} {c : Cause} (h : s.holds a c = true) :
    (s.mode a).joined c = s.mode a := by
  have same : withMember (s.mode a).causes c.index = (s.mode a).causes := causes_or_held h
  have some' : (s.mode a).causes ≠ 0 := by
    intro empty
    unfold State.holds at h
    rw [empty] at h
    simp [member] at h
  unfold Mode.joined
  rw [same, decide_eq_false some', Bool.or_false]

theorem Both.get_set {α : Type} (x : Both α) (a b : Approach) (v : α) :
    (x.set a v).get b = if b = a then v else x.get b := by
  by_cases h : b = a
  · rw [h, if_pos rfl, Both.get_set_self]
  · rw [if_neg h, Both.get_set_of_ne x v h]

/-- R123, R131: what the addition of a cause on an approach does to the modes. -/
theorem addCause_mode (a : Approach) (c : Cause) (s : State) (b : Approach) :
    (addCause a c s).st.mode b = if b = a then (s.mode a).joined c else s.mode b := by
  unfold addCause
  split
  · next held =>
    rw [joined_of_held held, Eff.of_st]
    split
    · next e => rw [e]
    · rfl
  · unfold State.mode
    split
    · next shut =>
      rw [enterDivertAll_modes, putCause_modes, Both.get_set]
      have empty : (s.mode a).causes = 0 := of_decide_eq_true shut
      split
      · simp [State.mode, putCause_modes, Mode.joined, show (s.modes.get a).causes = 0 from empty]
      · next e => rw [Both.get_set, if_neg e]
    · next shut =>
      rw [Eff.of_st, putCause_modes, Both.get_set]
      have some' : ¬ (s.modes.get a).causes = 0 := fun e => shut (decide_eq_true e)
      split
      · unfold State.mode Mode.joined
        rw [decide_eq_false some', Bool.or_false]
      · rfl

/-- R123: a cause that is not held leaves nothing. -/
theorem parted_of_free {s : State} {a : Approach} {c : Cause} (h : s.holds a c = false) (reset : Bool) :
    (s.mode a).parted c reset = s.mode a := by
  have bit : (s.mode a).causes.getLsbD c.index = false := h
  have others : (s.mode a).causes ≠ BitVec.twoPow 8 c.index := fun e => by
    rw [e] at bit
    simp [c.index_lt] at bit
  have same : withoutMember (s.mode a).causes c.index = (s.mode a).causes := by
    apply BitVec.eq_of_getLsbD_eq
    intro i hi
    unfold withoutMember
    rw [BitVec.getLsbD_and, BitVec.getLsbD_not, BitVec.getLsbD_twoPow]
    by_cases e : c.index = i
    · rw [← e, bit, Bool.false_and]
    · simp [hi, e]
  unfold Mode.parted
  rw [same, if_neg others]

/-- R123, R132: what the removal of a cause from an approach does to the modes. -/
theorem removeCause_mode (a : Approach) (c : Cause) (s : State) (b : Approach) :
    (removeCause a c s).st.mode b = if b = a then (s.mode a).parted c s.inReset else s.mode b := by
  have dropped : ∀ b, (s.dropCause a c).mode b
      = if b = a then { s.mode a with causes := withoutMember (s.mode a).causes c.index } else s.mode b :=
    fun b => Both.get_set ..
  have empties : s.holds a c = true →
      ((s.dropCause a c).isOpen a = true ↔ (s.mode a).causes = BitVec.twoPow 8 c.index) := fun held => by
    have some' : ¬ (s.mode a).causes = 0 := fun empty => by
      unfold State.holds at held
      rw [empty] at held
      simp [member] at held
    rw [← alone_iff, State.isOpen, decide_eq_true_iff, dropped, if_pos rfl]
    exact ⟨fun h => ⟨some', h⟩, And.right⟩
  unfold removeCause
  split
  · next free =>
    rw [parted_of_free free, Eff.of_st]
    split
    · next e => rw [e]
    · rfl
  · next held =>
    have alone := empties (by simpa using held)
    dsimp only
    split
    · next opens =>
      show (openApproach a (s.dropCause a c)).st.modes.get b = _
      rw [openApproach_modes, Both.get_set, dropped, if_pos rfl]
      split
      · unfold Mode.parted
        rw [if_pos (alone.1 opens)]
        rfl
      · next e => exact (dropped b).trans (if_neg e)
    · next opens =>
      rw [Eff.of_st, dropped]
      split
      · unfold Mode.parted
        rw [if_neg (mt alone.2 opens)]
      · rfl

theorem entered_mode (p : Prop) [Decidable p] (a b : Approach) (u : State) :
    (if p then entersDivertAll a u else { st := u, out := [] }).st.mode b
      = if b = a then { u.mode b with lineAsserted := (u.mode b).lineAsserted || decide p } else u.mode b := by
  by_cases e : p
  · rw [if_pos e, ← enterDivertAll_eq]
    show (enterDivertAll a u).st.modes.get b = _
    rw [enterDivertAll_modes, Both.get_set]
    split
    · next k => rw [k, decide_eq_true e, Bool.or_true]
    · rfl
  · simp [e]

theorem entered_part (p : Prop) [Decidable p] (a : Approach) (u : State) :
    (if p then entersDivertAll a u else { st := u, out := [] }).st.part = u.part := by
  rw [← enterDivertAll_eq]
  split
  · exact enterDivertAll_part a u
  · rfl

theorem opened_mode (p : Prop) [Decidable p] (a b : Approach) (u : State) :
    (if p then becomesOpen a u else { st := u, out := [] }).st.mode b
      = if b = a then { u.mode b with lineAsserted := if p then u.inReset else (u.mode b).lineAsserted }
        else u.mode b := by
  by_cases e : p
  · rw [if_pos e, ← openApproach_eq]
    show (openApproach a u).st.modes.get b = _
    rw [openApproach_modes, Both.get_set]
    split
    · next k => subst k; rfl
    · rfl
  · simp [e]

theorem opened_part (p : Prop) [Decidable p] (a : Approach) (u : State) :
    (if p then becomesOpen a u else { st := u, out := [] }).st.part = u.part := by
  split
  · exact openApproach_part a u
  · rfl

/-- R134: what the addition of a shared cause on both approaches does to the modes. -/
theorem addCauseBoth_mode (c : Cause) (s : State) (h : c.event = none) (b : Approach) :
    (addCauseBoth c s).st.mode b = (s.mode b).joined c := by
  rw [addCauseBoth_eq c s h]
  unfold addedOnBoth
  dsimp only
  rw [Eff.bind_st, entered_mode, entered_mode]
  cases b <;> rfl

/-- R134: what the removal of a shared cause from both approaches does to the modes. -/
theorem removeCauseBoth_mode (c : Cause) (s : State) (b : Approach) :
    (removeCauseBoth c s).st.mode b = (s.mode b).parted c s.inReset := by
  rw [removeCauseBoth_eq]
  unfold removedFromBoth
  dsimp only
  rw [Eff.bind_st, opened_mode, opened_mode]
  unfold State.inReset
  rw [opened_part]
  cases b <;> rfl

end Sys2Proof.Machine
end

section
namespace Sys2Proof.Machine

/-! ## Regular changes -/

/-- R124, R130, R133: what a change that is no change of the part state by a request, and no acknowledgement, leaves:
the divert-all lines guarded, PART_STATE as it is, OVERLOAD on both approaches or on neither, WEIGH_LOSS where it was,
and the part state, but that a DRAINING part may become UNCONFIGURED (R177). -/
structure Regular (s t : State) : Prop where
  lines : LinesGuarded s → LinesGuarded t
  partState : ∀ a, t.holds a .partState = s.holds a .partState
  overload : OverloadShared s → OverloadShared t
  weighLoss : ∀ a, s.holds a .weighLoss = true → t.holds a .weighLoss = true
  state : t.part.state = s.part.state ∨ s.part.state = .draining ∧ t.part.state = .unconfigured

/-- R124, R130, R133: what every step is to leave. -/
structure LawsKept (s t : State) : Prop where
  lines : LinesGuarded s → LinesGuarded t
  partState : PartStateHeld s → PartStateHeld t
  overload : OverloadShared s → OverloadShared t

theorem Regular.refl (s : State) : Regular s s := ⟨id, fun _ => rfl, id, fun _ => id, .inl rfl⟩

theorem Regular.trans {s t u : State} (h : Regular s t) (k : Regular t u) : Regular s u where
  lines g := k.lines (h.lines g)
  partState a := (k.partState a).trans (h.partState a)
  overload g := k.overload (h.overload g)
  weighLoss a g := k.weighLoss a (h.weighLoss a g)
  state := by
    have first := h.state
    have second := k.state
    grind

/-- The same, the later change first. -/
theorem Regular.after {s t u : State} (k : Regular t u) (h : Regular s t) : Regular s u := h.trans k

theorem LawsKept.refl (s : State) : LawsKept s s := ⟨id, id, id⟩

theorem LawsKept.trans {s t u : State} (h : LawsKept s t) (k : LawsKept t u) : LawsKept s u :=
  ⟨k.lines ∘ h.lines, k.partState ∘ h.partState, k.overload ∘ h.overload⟩

theorem Regular.running {s t : State} (h : Regular s t) (r : s.part.state = .running) : t.part.state = .running := by
  rcases h.state with e | ⟨e, -⟩
  · rw [e, r]
  · rw [r] at e
    cases e

/-- R124: PART_STATE stays held while the part does not become RUNNING. -/
theorem Regular.lawsKept {s t : State} (h : Regular s t) : LawsKept s t := by
  refine ⟨h.lines, fun held away a => ?_, h.overload⟩
  rw [h.partState]
  exact held (fun r => away (h.running r)) a

/-- A change that leaves the causes, the lines, the part state and the reset alone is regular. -/
theorem Regular.of_modes {s t : State}
    (modes : ∀ a, (t.mode a).causes = (s.mode a).causes ∧ (t.mode a).lineAsserted = (s.mode a).lineAsserted)
    (part : t.part = s.part) : Regular s t := by
  have holds : ∀ a c, t.holds a c = s.holds a c := fun a c => by unfold State.holds; rw [(modes a).1]
  refine ⟨fun h a released => ?_, fun a => holds a _, fun h => ?_, fun a h => (holds a _).trans h, .inl (by rw [part])⟩
  · rw [(modes a).2] at released
    rw [(modes a).1]
    unfold State.inReset
    rw [part]
    exact h a released
  · unfold OverloadShared
    rw [holds, holds]
    exact h

/-- A change of other blocks than approach mode control and the part's own record is regular. -/
theorem Regular.elsewhere {s t : State} (modes : t.modes = s.modes) (part : t.part = s.part) : Regular s t :=
  .of_modes (fun a => by unfold State.mode; rw [modes]; exact ⟨rfl, rfl⟩) part

/-- A change of the part's own record that leaves the part state and the reset alone is regular. -/
theorem regular_part (s : State) (x : Part) (state : x.state = s.part.state) (held : x.held = s.part.held) :
    Regular s { s with part := x } := by
  refine ⟨fun h a released => ?_, fun _ => rfl, id, fun _ => id, .inl state⟩
  obtain ⟨out, empty⟩ := h a released
  refine ⟨?_, empty⟩
  unfold State.inReset at out ⊢
  rw [← out, held]

theorem AccountOnly.regular {s t : State} (h : AccountOnly s t) : Regular s t := .elsewhere h.modes h.part

theorem regular_raise (s : State) (e : Event) (a : Option Approach) (i : Option SpanNo) (h : Handle) :
    Regular s (s.raise e a i h) := .elsewhere (s.raise_modes e a i h) (s.raise_part e a i h)

/-! ## Causes that join or leave -/

theorem addCause_part (a : Approach) (c : Cause) (s : State) : (addCause a c s).st.part = s.part := by
  unfold addCause
  split
  · rfl
  · split
    · rw [enterDivertAll_part, putCause_part]
    · exact putCause_part s a c

theorem removeCause_part (a : Approach) (c : Cause) (s : State) : (removeCause a c s).st.part = s.part := by
  unfold removeCause
  split
  · rfl
  · dsimp only
    split
    · rw [openApproach_part]
      rfl
    · rfl

theorem addCauseBoth_part (c : Cause) (s : State) (h : c.event = none) : (addCauseBoth c s).st.part = s.part := by
  rw [addCauseBoth_eq c s h]
  unfold addedOnBoth
  dsimp only
  rw [Eff.bind_st, entered_part, entered_part]

theorem removeCauseBoth_part (c : Cause) (s : State) : (removeCauseBoth c s).st.part = s.part := by
  rw [removeCauseBoth_eq]
  unfold removedFromBoth
  dsimp only
  rw [Eff.bind_st, opened_part, opened_part]

/-- R123: the sets when a cause has joined one of them. -/
theorem addCause_holds (a : Approach) (c : Cause) (s : State) (b : Approach) (d : Cause) :
    (addCause a c s).st.holds b d = (decide (b = a ∧ d = c) || s.holds b d) := by
  unfold State.holds
  rw [addCause_mode]
  split
  · next e => rw [member_joined, e]; simp
  · next e => simp [e]

/-- R123: the sets when a cause has left one of them. -/
theorem removeCause_holds (a : Approach) (c : Cause) (s : State) (b : Approach) (d : Cause) :
    (removeCause a c s).st.holds b d = (!decide (b = a ∧ d = c) && s.holds b d) := by
  unfold State.holds
  rw [removeCause_mode]
  split
  · next e => rw [member_parted, e]; simp
  · next e => simp [e]

/-- R134: the sets when a shared cause has joined both. -/
theorem addCauseBoth_holds (c : Cause) (s : State) (h : c.event = none) (a : Approach) (d : Cause) :
    (addCauseBoth c s).st.holds a d = (decide (d = c) || s.holds a d) := by
  unfold State.holds
  rw [addCauseBoth_mode c s h, member_joined]

/-- R134: the sets when a shared cause has left both. -/
theorem removeCauseBoth_holds (c : Cause) (s : State) (a : Approach) (d : Cause) :
    (removeCauseBoth c s).st.holds a d = (decide (d ≠ c) && s.holds a d) := by
  unfold State.holds
  rw [removeCauseBoth_mode, member_parted]

/-- R133: the lines stay guarded where each approach's modes are as before, or a cause has joined or left its set. -/
theorem LinesGuarded.of_modes {s t : State} (h : LinesGuarded s) (part : t.part = s.part)
    (modes : ∀ a, t.mode a = s.mode a ∨ (∃ c, t.mode a = (s.mode a).joined c)
      ∨ ∃ c, t.mode a = (s.mode a).parted c s.inReset) : LinesGuarded t := by
  have reset : t.inReset = s.inReset := by unfold State.inReset; rw [part]
  rw [linesGuarded_iff] at h ⊢
  intro a
  rw [reset]
  rcases modes a with e | ⟨c, e⟩ | ⟨c, e⟩ <;> rw [e]
  · exact h a
  · exact (h a).joined c
  · exact (h a).parted c

theorem addCause_lines (a : Approach) (c : Cause) (s : State) (h : LinesGuarded s) :
    LinesGuarded (addCause a c s).st := by
  refine h.of_modes (addCause_part a c s) fun b => ?_
  rw [addCause_mode]
  split
  · next e => exact .inr (.inl ⟨c, by rw [e]⟩)
  · exact .inl rfl

theorem removeCause_lines (a : Approach) (c : Cause) (s : State) (h : LinesGuarded s) :
    LinesGuarded (removeCause a c s).st := by
  refine h.of_modes (removeCause_part a c s) fun b => ?_
  rw [removeCause_mode]
  split
  · next e => exact .inr (.inr ⟨c, by rw [e]⟩)
  · exact .inl rfl

theorem addCauseBoth_lines (c : Cause) (s : State) (none' : c.event = none) (h : LinesGuarded s) :
    LinesGuarded (addCauseBoth c s).st :=
  h.of_modes (addCauseBoth_part c s none') fun b => .inr (.inl ⟨c, addCauseBoth_mode c s none' b⟩)

theorem removeCauseBoth_lines (c : Cause) (s : State) (h : LinesGuarded s) :
    LinesGuarded (removeCauseBoth c s).st :=
  h.of_modes (removeCauseBoth_part c s) fun b => .inr (.inr ⟨c, removeCauseBoth_mode c s b⟩)

/-- R123: the addition of a cause that is not shared is regular. -/
theorem regular_addCause (a : Approach) {c : Cause} (s : State) (own : c ≠ .partState ∧ c ≠ .overload) :
    Regular s (addCause a c s).st := by
  have held := addCause_holds a c s
  refine ⟨addCause_lines a c s, fun b => ?_, fun h => ?_, fun b h => ?_, .inl (by rw [addCause_part])⟩
  · simp [held, own.1.symm]
  · simpa [OverloadShared, held, own.2.symm] using h
  · simp [held, h]

/-- R123: the removal of a cause that is not shared, nor WEIGH_LOSS, is regular. -/
theorem regular_removeCause (a : Approach) {c : Cause} (s : State)
    (own : c ≠ .partState ∧ c ≠ .overload ∧ c ≠ .weighLoss) : Regular s (removeCause a c s).st := by
  have held := removeCause_holds a c s
  refine ⟨removeCause_lines a c s, fun b => ?_, fun h => ?_, fun b h => ?_, .inl (by rw [removeCause_part])⟩
  · simp [held, own.1.symm]
  · simpa [OverloadShared, held, own.2.1.symm] using h
  · simp [held, h, own.2.2.symm]

/-- R130: OVERLOAD joins both sets. -/
theorem regular_addOverload (s : State) : Regular s (addCauseBoth .overload s).st := by
  have held := addCauseBoth_holds .overload s rfl
  refine ⟨addCauseBoth_lines _ s rfl, fun b => ?_, fun _ => ?_, fun b h => ?_, .inl (by rw [addCauseBoth_part _ s rfl])⟩
  · simp [held]
  · simp [OverloadShared, held]
  · simp [held, h]

/-- R136: OVERLOAD leaves both sets. -/
theorem regular_removeOverload (s : State) : Regular s (removeCauseBoth .overload s).st := by
  have held := removeCauseBoth_holds .overload s
  refine ⟨removeCauseBoth_lines _ s, fun b => ?_, fun _ => ?_, fun b h => ?_, .inl (by rw [removeCauseBoth_part])⟩
  · simp [held]
  · simp [OverloadShared, held]
  · simp [held, h]

end Sys2Proof.Machine
end

section
namespace Sys2Proof.Machine

/-! ## Orderly transitions: a regular change, and routine reports -/

/-- The reports that no change of the part state by a request makes, and that name no shared cause and no WEIGH_LOSS for
one approach. -/
def Signal.routine : Signal → Bool
  | .leftRunning => false
  | .enteredRunning => false
  | .addCause _ c => decide (c ≠ .partState ∧ c ≠ .overload)
  | .removeCause _ c => decide (c ≠ .partState ∧ c ≠ .overload ∧ c ≠ .weighLoss)
  | _ => true

/-- A transition that changes the state regularly and makes routine reports. -/
structure Orderly (s : State) (e : Eff) : Prop where
  regular : Regular s e.st
  routine : ∀ g ∈ e.out, g.routine = true

theorem Orderly.of {s t : State} (h : Regular s t) : Orderly s (Eff.of t) := ⟨h, fun _ k => nomatch k⟩

theorem Orderly.after {s t : State} {e : Eff} (k : Orderly t e) (h : Regular s t) : Orderly s e :=
  ⟨h.trans k.regular, k.routine⟩

theorem Orderly.bind {s : State} {e : Eff} {f : State → Eff} (h : Orderly s e) (k : ∀ u, Orderly u (f u)) :
    Orderly s (e.bind f) :=
  ⟨h.regular.trans (k e.st).regular, fun g hg =>
    (List.mem_append.1 hg).elim (h.routine g) ((k e.st).routine g)⟩

theorem Orderly.map {s : State} {e : Eff} {f : State → State} (h : Orderly s e) (k : ∀ u, Regular u (f u)) :
    Orderly s (e.map f) := ⟨h.regular.trans (k e.st), h.routine⟩

theorem Orderly.emit {s : State} {e : Eff} {gs : List Signal} (h : Orderly s e)
    (k : ∀ g ∈ gs, g.routine = true) : Orderly s (e.emit gs) :=
  ⟨h.regular, fun g hg => (List.mem_append.1 hg).elim (h.routine g) (k g)⟩

theorem orderly_each {α : Type} {xs : List α} {f : α → State → Eff} {s : State} (h : ∀ x u, Orderly u (f x u)) :
    Orderly s (Eff.each xs f s) := by
  obtain ⟨regular, routine⟩ := Eff.each_both (Regular s) (fun g => g.routine = true)
    (fun x _ u hu => ⟨hu.trans (h x u).regular, (h x u).routine⟩) (Regular.refl s) (xs := xs) (f := f)
  exact ⟨regular, routine⟩

theorem regular_foldl {α : Type} (xs : List α) (f : State → α → State) (s : State) (h : ∀ s x, Regular s (f s x)) :
    Regular s (xs.foldl f s) := by
  induction xs generalizing s with
  | nil => exact Regular.refl s
  | cons x xs ih => exact (h s x).trans (ih (f s x))

theorem regular_updTicket (s : State) (h : Handle) (f : Ticket → Ticket) : Regular s (s.updTicket h f) :=
  .elsewhere rfl rfl

theorem regular_updPlaces (s : State) (a : Approach) (f : Places → Places) : Regular s (s.updPlaces a f) :=
  .elsewhere rfl rfl

theorem regular_setDue (s : State) (h : Handle) (kind : DueKind) (due : Time) : Regular s (s.setDue h kind due) :=
  .elsewhere rfl rfl

theorem regular_updSpan (s : State) (i : SpanNo) (f : SpanRec → SpanRec) : Regular s (s.updSpan i f) :=
  .elsewhere rfl rfl

theorem regular_updTable (s : State) (f : Table → Table) : Regular s (s.updTable f) := .elsewhere rfl rfl

theorem regular_dropDue (s : State) (h : Handle) : Regular s (s.dropDue h) := .elsewhere rfl rfl

theorem regular_setSignal (s : State) (a : Approach) (x : BaySignal) : Regular s (s.setSignal a x) :=
  .elsewhere rfl rfl

theorem regular_admission (s : State) (x : Admission) : Regular s { s with admission := x } := .elsewhere rfl rfl

/-! ## Span account -/

theorem orderly_evalOverload (a : Option Approach) (h : Handle) (i : SpanNo) (s : State) :
    Orderly s (evalOverload a h i s) :=
  ⟨(accountOnly_evalOverload a h i s).regular, fun _ hg => by rw [evalOverload_out hg]; rfl⟩

theorem orderly_placeForced (h : Handle) (a : Approach) (m : Nat) (is : List SpanNo) (s : State) :
    Orderly s (placeForced h a m is s) :=
  .after (orderly_each fun i u => orderly_evalOverload (some a) h i u)
    (.after (regular_updTicket ..) (regular_foldl is _ s fun s i => regular_updSpan s i _))

theorem orderly_releaseClaims (h : Handle) (is : List SpanNo) (s : State) : Orderly s (releaseClaims h is s) := by
  unfold releaseClaims
  split
  · exact .of (.refl s)
  · refine .emit (.after (orderly_each fun i u => orderly_evalOverload none 0 i u) ?_) (by simp [Signal.routine])
    refine .after (regular_foldl _ _ _ fun u i => regular_updSpan u i _) ?_
    refine .after (regular_updTicket ..) ?_
    exact regular_foldl _ _ _ fun u i => regular_updSpan u i _

theorem orderly_setPresumed (p : SpanRec → Nat) (i : SpanNo) (s : State) : Orderly s (setPresumed p i s) :=
  .after (orderly_evalOverload ..) (.elsewhere rfl rfl)

theorem regular_placeUnforced (s : State) (h : Handle) (m : Nat) : Regular s (s.placeUnforced h m) :=
  (regular_foldl _ _ s fun s i => regular_updSpan s i _).trans (.elsewhere rfl rfl)

theorem orderly_writeMassLimit (i : SpanNo) (v : Nat) (s : State) : Orderly s (writeMassLimit i v s) := by
  have taken : ∀ f : SpanRec → SpanRec, Orderly s (evalOverload none 0 i (State.updSpan
      { s with profile := { s.profile with spanLimit := upd s.profile.spanLimit i fun _ => v } } i f)) :=
    fun f => .after (orderly_evalOverload ..) (.elsewhere rfl rfl)
  unfold writeMassLimit
  dsimp only
  split
  · exact taken _
  · split
    · exact (taken _).emit (by simp [Signal.routine])
    · split <;> exact taken _

theorem orderly_writeCountLimit (i : SpanNo) (v : Nat) (s : State) : Orderly s (writeCountLimit i v s) := by
  have taken : ∀ f : SpanRec → SpanRec, Orderly s (evalOverload none 0 i (State.updSpan
      { s with profile := { s.profile with spanCountLimit := upd s.profile.spanCountLimit i fun _ => v } } i f)) :=
    fun f => .after (orderly_evalOverload ..) (.elsewhere rfl rfl)
  unfold writeCountLimit
  dsimp only
  split
  · exact taken _
  · split
    · exact (taken _).emit (by simp [Signal.routine])
    · split <;> exact taken _

/-! ## Aspects -/

/-- R122: the counts of an approach's modes are no part of what is kept. -/
theorem regular_updMode (s : State) (a : Approach) (f : Mode → Mode)
    (h : ∀ m, (f m).causes = m.causes ∧ (f m).lineAsserted = m.lineAsserted) : Regular s (s.updMode a f) := by
  refine .of_modes (fun b => ?_) rfl
  by_cases e : b = a
  · rw [e, State.mode_updMode_self]
    exact h _
  · rw [State.mode_updMode_of_ne s f e]
    exact ⟨rfl, rfl⟩

theorem orderly_noteFailed (a : Approach) (was now : Bool) (s : State) : Orderly s (noteFailed a was now s) := by
  unfold noteFailed
  split
  · exact .of (.refl s)
  · exact ⟨regular_updMode s a (fun m => { m with failedCount := _ }) fun _ => ⟨rfl, rfl⟩, by simp [Signal.routine]⟩

theorem orderly_putLane (a : Approach) (l : LaneNo) (r : AspectRec Aspect) (s : State) : Orderly s (putLane a l r s) :=
  .after (orderly_noteFailed ..) (.elsewhere rfl rfl)

theorem orderly_putBay (a : Approach) (r : AspectRec BayAspect) (s : State) : Orderly s (putBay a r s) :=
  .after (orderly_noteFailed ..) (.elsewhere rfl rfl)

theorem regular_offerOrder (a : Approach) (x : TxKind) (p : List Byte) (s : State) :
    Regular s (offerOrder a x p s).1 := by
  rw [offerOrder_cases]
  exact .elsewhere rfl rfl

theorem orderly_orderLane (a : Approach) (l : LaneNo) (x : Aspect) (h : Handle) (s : State) :
    Orderly s (orderLane a l x h s) := .after (orderly_putLane ..) (regular_offerOrder ..)

theorem orderly_orderBay (a : Approach) (x : BayAspect) (h : Handle) (s : State) : Orderly s (orderBay a x h s) :=
  .after (orderly_putBay ..) (regular_offerOrder ..)

theorem orderly_takeLaneAttempt (a : Approach) (l : LaneNo) (x : Aspect) (h : Handle) (s : State) :
    Orderly s (takeLaneAttempt a l x h s) := by
  unfold takeLaneAttempt
  split
  · exact .of (.elsewhere rfl rfl)
  · exact orderly_orderLane ..
  · exact orderly_orderLane ..

theorem orderly_takeBayAttempt (a : Approach) (x : BayAspect) (h : Handle) (s : State) :
    Orderly s (takeBayAttempt a x h s) := by
  unfold takeBayAttempt
  split
  · exact .of (.elsewhere rfl rfl)
  · exact orderly_orderBay ..
  · exact orderly_orderBay ..

theorem orderly_wantLane (a : Approach) (l : LaneNo) (x : Aspect) (s : State) : Orderly s (wantLane a l x s) := by
  unfold wantLane
  dsimp only
  split
  · exact .of (.refl s)
  · split
    · exact .of (.elsewhere rfl rfl)
    all_goals exact ⟨.elsewhere rfl rfl, by simp [Signal.routine]⟩

theorem orderly_wantBay (a : Approach) (x : BayAspect) (s : State) : Orderly s (wantBay a x s) := by
  unfold wantBay
  dsimp only
  split
  · exact .of (.refl s)
  · split
    · exact .of (.elsewhere rfl rfl)
    all_goals exact ⟨.elsewhere rfl rfl, by simp [Signal.routine]⟩

theorem orderly_deriveLane (a : Approach) (l : LaneNo) (s : State) : Orderly s (deriveLane a l s) := by
  unfold deriveLane
  repeat' split
  all_goals first
    | exact .of (.refl s)
    | exact orderly_wantLane ..
    | exact ⟨.refl s, by simp [Signal.routine]⟩

theorem orderly_deriveLanes (a : Approach) (s : State) : Orderly s (deriveLanes a s) :=
  orderly_each fun l u => orderly_deriveLane a l u

theorem orderly_deriveBay (a : Approach) (s : State) : Orderly s (deriveBay a s) := by
  unfold deriveBay
  split
  · exact .of (.refl s)
  · exact orderly_wantBay ..

theorem orderly_shownRecord (a : Approach) (r : RecordId) (s : State) : Orderly s (shownRecord a r s) := by
  cases r with
  | lane l =>
    show Orderly s (shownLane a l s)
    unfold shownLane
    dsimp only
    split
    · exact orderly_putLane ..
    · split
      · exact orderly_putLane ..
      · exact (orderly_putLane ..).bind fun u => orderly_orderLane ..
  | bay =>
    show Orderly s (shownBay a s)
    unfold shownBay
    dsimp only
    split
    · exact orderly_putBay ..
    · split
      · exact orderly_putBay ..
      · exact (orderly_putBay ..).bind fun u => orderly_orderBay ..

theorem orderly_lostRecord (a : Approach) (r : RecordId) (s : State) : Orderly s (lostRecord a r s) := by
  cases r
  · exact orderly_putLane ..
  · exact orderly_putBay ..

theorem orderly_resendFailed (a : Approach) (save : Option RecordId) (s : State) :
    Orderly s (resendFailed a save s) := by
  refine orderly_each fun r u => ?_
  unfold resendRecord
  split
  · cases r
    · exact orderly_orderLane ..
    · exact orderly_orderBay ..
  · exact .of (.refl u)

theorem orderly_failOutstanding (a : Approach) (s : State) : Orderly s (failOutstanding a s) := by
  refine orderly_each fun r u => ?_
  split
  · exact orderly_lostRecord ..
  · exact .of (.refl u)

/-! ## Approach mode control -/

theorem routine_enterDivertAll (a : Approach) (s : State) : ∀ g ∈ (enterDivertAll a s).out, g.routine = true :=
  (orderly_deriveLanes ..).routine

theorem routine_openApproach (a : Approach) (s : State) : ∀ g ∈ (openApproach a s).out, g.routine = true := by
  intro g hg
  rcases List.mem_append.1 hg with h | h
  · exact (orderly_deriveLanes ..).routine g h
  · rw [List.mem_singleton.1 h]
    rfl

theorem routine_addCause (a : Approach) (c : Cause) (s : State) : ∀ g ∈ (addCause a c s).out, g.routine = true := by
  unfold addCause
  split
  · exact fun _ h => nomatch h
  · split
    · exact routine_enterDivertAll _ _
    · exact fun _ h => nomatch h

theorem routine_removeCause (a : Approach) (c : Cause) (s : State) :
    ∀ g ∈ (removeCause a c s).out, g.routine = true := by
  unfold removeCause
  split
  · exact fun _ h => nomatch h
  · dsimp only
    split
    · exact routine_openApproach _ _
    · exact fun _ h => nomatch h

theorem routine_addCauseBoth (c : Cause) (s : State) : ∀ g ∈ (addCauseBoth c s).out, g.routine = true := by
  have entered : ∀ (a : Approach) (u : State),
      ∀ g ∈ (if s.isOpen a = true then enterDivertAll a u else Eff.of u).out, g.routine = true := by
    intro a u
    split
    · exact routine_enterDivertAll a u
    · exact fun _ h => nomatch h
  exact fun g hg => (List.mem_append.1 hg).elim (entered .A _ g) (entered .B _ g)

theorem routine_removeCauseBoth (c : Cause) (s : State) : ∀ g ∈ (removeCauseBoth c s).out, g.routine = true := by
  have opened : ∀ (p : Prop) [Decidable p] (a : Approach) (u : State),
      ∀ g ∈ (if p then openApproach a u else Eff.of u).out, g.routine = true := by
    intro p _ a u
    split
    · exact routine_openApproach a u
    · exact fun _ h => nomatch h
  exact fun g hg => (List.mem_append.1 hg).elim (opened _ .A _ g) (opened _ .B _ g)

theorem orderly_addCause (a : Approach) {c : Cause} (s : State) (own : c ≠ .partState ∧ c ≠ .overload) :
    Orderly s (addCause a c s) := ⟨regular_addCause a s own, routine_addCause a c s⟩

theorem orderly_removeCause (a : Approach) {c : Cause} (s : State)
    (own : c ≠ .partState ∧ c ≠ .overload ∧ c ≠ .weighLoss) : Orderly s (removeCause a c s) :=
  ⟨regular_removeCause a s own, routine_removeCause a c s⟩

theorem orderly_addOverload (s : State) : Orderly s (addCauseBoth .overload s) :=
  ⟨regular_addOverload s, routine_addCauseBoth _ s⟩

theorem orderly_unticketedIntruder (a : Approach) (s : State) : Orderly s (unticketedIntruder a s) := by
  unfold unticketedIntruder
  split
  · exact .of (.refl s)
  · exact .after (orderly_addOverload _) (regular_raise ..)

theorem orderly_weighLossSet (a : Approach) (s : State) : Orderly s (weighLossSet a s) := by
  unfold weighLossSet
  dsimp only
  split
  · exact .of (regular_updMode s a _ fun _ => ⟨rfl, rfl⟩)
  · exact .after (orderly_addCause a _ (by decide)) (regular_updMode s a _ fun _ => ⟨rfl, rfl⟩)

theorem orderly_judgeWeighSilent (a : Approach) (s : State) : Orderly s (judgeWeighSilent a s) := by
  unfold judgeWeighSilent
  split
  · exact orderly_removeCause a s (by decide)
  · exact orderly_addCause a s (by decide)

theorem orderly_judgeGantryFault (a : Approach) (s : State) : Orderly s (judgeGantryFault a s) := by
  unfold judgeGantryFault
  split
  · exact orderly_removeCause a s (by decide)
  · exact orderly_addCause a s (by decide)

theorem orderly_judgePool (s : State) : Orderly s (judgePool s) := by
  unfold judgePool
  split
  · exact (orderly_removeCause .A s (by decide)).bind fun u => orderly_removeCause .B u (by decide)
  · exact .of (.refl s)

theorem orderly_oneMoreStuck (a : Approach) (s : State) : Orderly s (oneMoreStuck a s) := by
  refine ⟨regular_updMode s a (fun m => { m with stuckCount := _ }) fun _ => ⟨rfl, rfl⟩, ?_⟩
  unfold oneMoreStuck
  dsimp only
  split <;> simp [Signal.routine]

theorem orderly_oneFewerStuck (a : Approach) (s : State) : Orderly s (oneFewerStuck a s) := by
  refine ⟨regular_updMode s a (fun m => { m with stuckCount := _ }) fun _ => ⟨rfl, rfl⟩, ?_⟩
  unfold oneFewerStuck
  dsimp only
  split <;> simp [Signal.routine]

/-! ## Admission -/

theorem regular_setHold (s : State) (a : Approach) (q : HoldQueue) : Regular s (s.setHold a q) := by
  rw [setHold_fields]
  exact .elsewhere rfl rfl

theorem regular_releaseFromBay (s : State) (t : Ticket) (x : ReleaseKind) : Regular s (s.releaseFromBay t x) :=
  .after (regular_setSignal ..) (((regular_setDue ..).after (regular_updPlaces ..)).after
    ((regular_updTicket ..).after (regular_setHold ..)))

theorem orderly_releaseToDiversion (t : Ticket) (s : State) : Orderly s (releaseToDiversion t s) :=
  .after (orderly_deriveBay ..) (.after (regular_releaseFromBay ..) (regular_updTicket ..))

theorem orderly_divertOverdueHead (a : Approach) (s : State) : Orderly s (divertOverdueHead a s) := by
  unfold divertOverdueHead
  split
  · exact .of (.refl s)
  · split
    · exact orderly_releaseToDiversion ..
    · exact .of (.refl s)

theorem orderly_leavingEmpty (a : Approach) (s : State) : Orderly s (leavingEmpty a s) :=
  .emit (.bind (.after (orderly_deriveBay a (s.setSignal a .idle)) (.elsewhere rfl rfl))
    fun u => orderly_divertOverdueHead a u) (by simp [Signal.routine])

theorem regular_grantHead (t : Ticket) (s : State) : Regular s (grantHead t s).st := by
  unfold grantHead
  dsimp only
  split
  · exact ((regular_releaseFromBay ..).after ((regular_updTicket ..).after (regular_placeUnforced ..))).after
      (.elsewhere rfl rfl)
  · exact ((regular_setHold ..).after ((regular_updTicket ..).after (regular_placeUnforced ..))).after
      (.elsewhere rfl rfl)

theorem regular_notify (s : State) (x : TxKind) (p : List Byte) : Regular s (s.notify x p) :=
  .elsewhere (s.notify_modes x p) (s.notify_part x p)

theorem regular_arbiterPass {s : State} {g : Grant} (h : arbiterPass s = some g) : Regular s g.st := by
  rcases arbiterPass_grants h with ⟨e, t, -, -, -, -, rfl⟩ | ⟨-, -, a, t, -, -, rfl | rfl⟩
  · exact (regular_notify ..).after (((regular_setDue ..).after ((regular_updPlaces ..).after (regular_admission ..))).after
      ((regular_updTicket ..).after (regular_placeUnforced ..)))
  · exact regular_grantHead ..
  · exact (regular_grantHead ..).after (.elsewhere rfl rfl)

theorem orderly_deriveRecord (a : Approach) (r : RecordId) (s : State) : Orderly s (deriveRecord a r s) := by
  cases r
  · exact orderly_deriveLane ..
  · exact orderly_deriveBay ..

theorem orderly_arbiterRun (s : State) : Orderly s (arbiterRun s) :=
  .after (orderly_each fun a _ => orderly_each fun r u => orderly_deriveRecord a r u)
    (grants_st (Regular s) (fun _ _ hg h => h.trans (regular_arbiterPass hg)) _ (.refl s))

theorem orderly_bayArrive (t : Ticket) (arrival : Time) (s : State) : Orderly s (bayArrive t arrival s) :=
  ⟨(regular_setDue ..).after ((regular_updTicket ..).after (regular_setHold ..)), by simp [bayArrive, Signal.routine]⟩

theorem orderly_bayLimitCome (h : Handle) (s : State) : Orderly s (bayLimitCome h s) := by
  unfold bayLimitCome
  split
  · exact .of (.refl s)
  · exact .after (orderly_divertOverdueHead ..) (.elsewhere rfl rfl)

theorem orderly_demote (h : Handle) (s : State) : Orderly s (demote h s) := by
  unfold demote
  split
  · exact .of (.refl s)
  · next t _ =>
    split
    · have lane : ∀ g ∈ t.laneSignal, g.routine = true := by
        intro g hg
        obtain ⟨l, -, rfl⟩ := List.mem_map.1 hg
        rfl
      have told : ∀ {e : Eff}, Orderly s e → Orderly s { e with out := t.laneSignal ++ e.out } := fun released =>
        ⟨released.regular, fun g hg => (List.mem_append.1 hg).elim (lane g) (released.routine g)⟩
      dsimp only
      split
      · exact told (.after (orderly_releaseClaims ..) (.after (regular_setHold ..) ((regular_updTicket ..).after (regular_updTicket ..))))
      · exact told (.after (orderly_releaseClaims ..) (.elsewhere rfl rfl))
    · exact .of (.refl s)

/-- R177: a DRAINING part without a live ticket becomes UNCONFIGURED. -/
theorem regular_drained (s : State) : Regular s s.drained := by
  unfold State.drained
  split
  · next h => exact ⟨id, fun _ => rfl, id, fun _ => id, .inr ⟨h.1, rfl⟩⟩
  · exact .refl s

/-! ## Reports -/

/-- A routine report is taken in an orderly transition. -/
theorem act_orderly {g : Signal} (s : State) (usual : g.routine = true) : Orderly s (act g s) := by
  cases g with
  | addCause a c => exact orderly_addCause a s (of_decide_eq_true usual)
  | removeCause a c => exact orderly_removeCause a s (of_decide_eq_true usual)
  | leftRunning => cases usual
  | enteredRunning => cases usual
  | overloaded => exact orderly_addOverload s
  | unticketedIntruder a => exact orderly_unticketedIntruder a s
  | overloadAcknowledged => exact ⟨regular_removeOverload s, routine_removeCauseBoth _ s⟩
  | weighLoss a => exact orderly_weighLossSet a s
  | judgeGantry a => exact orderly_judgeGantryFault a s
  | judgeWeigh a => exact orderly_judgeWeighSilent a s
  | deriveLane a l => exact orderly_deriveLane a l s
  | attemptLane a l x h => exact orderly_takeLaneAttempt a l x h s
  | attemptBay a x h => exact orderly_takeBayAttempt a x h s
  | demote h => exact orderly_demote h s
  | arbiter => exact orderly_arbiterRun s
  | leavingEmpty a => exact orderly_leavingEmpty a s
  | poolReport => exact orderly_judgePool s
  | noLiveTicket => exact .of (regular_drained s)

/-- What follows from an orderly transition is regular. -/
theorem Orderly.settled {s : State} {e : Eff} (h : Orderly s e) : Regular s (settle e) :=
  settle_induct (Regular s) (fun g => g.routine = true) (fun _ u hg hu => hu.trans (act_orderly u hg).regular)
    (fun _ u hg => (act_orderly u hg).routine) h.routine h.regular

end Sys2Proof.Machine
end

section
namespace Sys2Proof.Machine

/-! ## Closings and moves -/

theorem routine_moveSignals (a : Approach) (s t : State) : ∀ g ∈ moveSignals a s t, g.routine = true := by
  intro g hg
  rcases List.mem_append.1 hg with h | h
  · obtain ⟨l, -, rfl⟩ := List.mem_map.1 h
    rfl
  · split at h
    · rw [List.mem_singleton.1 h]
      rfl
    · cases h

theorem orderly_closeSteps (t : Ticket) (outcome : CloseOutcome) (s : State) : Orderly s (closeSteps t outcome s) := by
  have released : Orderly (s.dropDue t.handle)
      (if t.claims = 0 then Eff.of (s.dropDue t.handle) else releaseClaims t.handle allSpans (s.dropDue t.handle)) := by
    split
    · exact .of (.refl _)
    · exact orderly_releaseClaims ..
  have leaves : ∀ u : State, Regular u ((u.leaveSpan t).leaveAdmission t) := fun u => by
    refine .after ?_ (t := u.leaveSpan t) ?_
    · rw [leaveAdmission_fields]
      exact .elsewhere rfl rfl
    · unfold State.leaveSpan
      split
      · exact .refl u
      · exact regular_updSpan ..
  have unplaced : ∀ u : State, Orderly u (unplace t u) := fun u =>
    ⟨regular_updPlaces u t.approach fun p => p.without t.handle, routine_moveSignals _ _ _⟩
  have offered : ∀ u : State, Regular u ((u.removeTicket t).offerSummary (t.summary outcome s.now)) := fun u => by
    refine .after ?_ (t := u.removeTicket t) (.elsewhere rfl rfl)
    unfold State.offerSummary
    split
    · exact .elsewhere rfl rfl
    · exact .after (regular_updTable ..) (regular_raise _ .closeLost (some t.approach) none t.handle)
  exact (((released.map leaves).bind unplaced).map offered).after (.elsewhere rfl rfl)

theorem orderly_closeTicket (h : Handle) (outcome : CloseOutcome) (s : State) :
    Orderly s (closeTicket h outcome s) := by
  unfold closeTicket
  split
  · exact .of (.refl s)
  · refine (orderly_closeSteps ..).emit fun g hg => ?_
    rcases List.mem_append.1 hg with hg | hg
    · rcases List.mem_append.1 hg with hg | hg
      · split at hg
        · rw [List.mem_singleton.1 hg]
          rfl
        · cases hg
      · rw [List.mem_singleton.1 hg]
        rfl
    · split at hg
      · rw [List.mem_singleton.1 hg]
        rfl
      · cases hg

/-! ## Tracking -/

theorem regular_leavePlace (s : State) (t : Ticket) (new : TicketState) (fs : List TicketFlag) :
    Regular s (s.leavePlace t new fs) :=
  .after (regular_updTicket ..) (.after (regular_dropDue ..) (regular_updPlaces ..))

theorem regular_runIn (s : State) (t : Ticket) (fs : List TicketFlag) (due : Time) : Regular s (s.runIn t fs due) :=
  .after (regular_setDue ..) (.after (regular_updPlaces ..) (regular_leavePlace ..))

theorem regular_watchIt (s : State) (t : Ticket) (fs : List TicketFlag) (due : Time) : Regular s (s.watchIt t fs due) :=
  .after (regular_setDue ..) (.after (regular_updPlaces ..) (regular_leavePlace ..))

theorem regular_enterSpan (s : State) (t : Ticket) (i : SpanNo) (fs : List TicketFlag) (entry : Time) :
    Regular s (s.enterSpan t i fs entry) :=
  .after (regular_updSpan ..) (.after (regular_setDue ..) (.after (regular_updPlaces ..)
    (.after (regular_updTicket ..) (regular_leavePlace ..))))

theorem orderly_reportMove (a : Approach) {s t : State} (h : Regular s t) : Orderly s (reportMove a s t) :=
  ⟨h, routine_moveSignals a s t⟩

theorem orderly_stray (a : Approach) (i : Option SpanNo) (s : State) : Orderly s (stray a i s) :=
  .of (.after (regular_updTable ..) (regular_raise s .strayDetection (some a) i 0))

theorem orderly_passGantry (t : Ticket) (l : LaneNo) (arrival : Time) (fs : List TicketFlag) (s : State) :
    Orderly s (passGantry t l arrival fs s) := by
  unfold passGantry
  split
  · have arrived := (orderly_bayArrive t arrival (s.leavePlace t .bayed fs)).after (regular_leavePlace s t .bayed fs)
    exact ⟨arrived.regular, fun g hg => (List.mem_append.1 hg).elim (routine_moveSignals _ _ _ g) (arrived.routine g)⟩
  · split
    · exact orderly_reportMove _ (regular_runIn ..)
    · exact orderly_reportMove _ ((regular_updTicket ..).after (regular_watchIt ..))
  · exact orderly_reportMove _ (regular_watchIt ..)
  · exact orderly_reportMove _ (regular_watchIt ..)

theorem orderly_exitBay (t : Ticket) (bayExit : Time) (fs : List TicketFlag) (s : State) :
    Orderly s (exitBay t bayExit fs s) := by
  unfold exitBay
  split
  · exact orderly_reportMove _ (regular_runIn ..)
  · exact orderly_reportMove _ (regular_watchIt ..)

theorem orderly_enterViaduct (t : Ticket) (fs : List TicketFlag) (entry : Time) (s : State) :
    Orderly s (enterViaduct t fs entry s) := orderly_reportMove _ (regular_enterSpan ..)

theorem orderly_enterAsViolation (t : Ticket) (entry : Time) (s : State) : Orderly s (enterAsViolation t entry s) :=
  ((orderly_enterViaduct ..).bind fun _ => orderly_placeForced ..).map fun u =>
    .after (regular_updTable ..) (regular_raise u .violation (some t.approach) (some (s.firstSpan t.approach)) t.handle)

theorem regular_intrusion (s : State) (a : Approach) (i : SpanNo) (h : Handle) : Regular s (s.intrusion a i h) :=
  .after (regular_updTable ..) (regular_raise s .intrusion (some a) (some i) h)

theorem orderly_intruder (a : Approach) (i : SpanNo) (captured : Time) (s : State) :
    Orderly s (intruder a i captured s) := by
  unfold intruder
  split
  · exact ⟨regular_intrusion .., by simp [Signal.routine]⟩
  · exact .map (.after (orderly_placeForced ..) (.after (regular_enterSpan ..) (.elsewhere rfl rfl)))
      fun u => regular_intrusion ..

theorem orderly_entryDetection (a : Approach) (captured : Time) (s : State) :
    Orderly s (entryDetection a captured s) := by
  unfold entryDetection
  split
  · exact orderly_enterViaduct ..
  split
  · exact orderly_enterViaduct ..
  split
  · exact orderly_enterViaduct ..
  split
  · unfold enterWatched
    split
    · exact orderly_enterViaduct ..
    · exact orderly_enterAsViolation ..
  · exact orderly_intruder ..

theorem orderly_passBoundary (t : Ticket) (i : SpanNo) (captured : Time) (s : State) :
    Orderly s (passBoundary t i captured s) := by
  unfold passBoundary
  dsimp only
  refine .after (orderly_releaseClaims ..) (.after (regular_updSpan ..) ?_)
  have left : ∀ u : State, Regular u (u.leaveSpan t) := fun u => by
    unfold State.leaveSpan
    split
    · exact .refl u
    · exact regular_updSpan ..
  refine .after (left _) ?_
  split
  · exact .after (regular_updTicket ..) (regular_updPlaces ..)
  · exact .after (regular_setDue ..) (.after (regular_updTicket ..) (regular_updPlaces ..))

/-- Every detection is matched in an orderly transition. -/
theorem orderly_deliver (pt : Point) (captured : Time) (s : State) : Orderly s (deliver pt captured s) := by
  unfold deliver
  split
  · unfold gantryDetection
    split
    · exact orderly_passGantry ..
    · split
      · exact orderly_passGantry ..
      · exact orderly_stray ..
  · unfold bayExitDetection
    split
    · exact orderly_stray ..
    · exact orderly_exitBay ..
  · exact orderly_entryDetection ..
  · unfold boundaryDetection
    dsimp only
    split
    · exact orderly_passBoundary ..
    · split
      · exact orderly_stray ..
      · exact orderly_intruder ..
  · unfold exitDetection
    split
    · exact orderly_closeTicket ..
    · exact orderly_stray ..

/-! ## Lines and the profile -/

theorem orderly_reportStuck {judge : Approach → State → Eff} (h : ∀ a s, Orderly s (judge a s)) (pt : Option Point)
    (s : State) : Orderly s (reportStuck judge pt s) := by
  unfold reportStuck
  split
  · exact .of (.refl s)
  · exact h ..

theorem orderly_takeTrailing (d : LineNo) (s : State) : Orderly s (takeTrailing d s) := by
  unfold takeTrailing
  dsimp only
  split
  · exact .of (.refl s)
  · exact .of (.elsewhere rfl rfl)
  · exact .of (.elsewhere rfl rfl)
  · exact .after (orderly_reportStuck orderly_oneFewerStuck ..) (.elsewhere rfl rfl)

theorem orderly_deliverLine (r : LineRec) (s : State) : Orderly s (deliverLine r s) := by
  unfold deliverLine
  split
  · exact .of (.refl s)
  · split
    · exact .of (.refl s)
    · exact orderly_deliver ..

theorem orderly_assignLine (d : LineNo) (pt : Option Point) (s : State) : Orderly s (assignLine d pt s) := by
  unfold assignLine
  dsimp only
  split
  · refine .after (t := s.updLine d fun r => { r with point := pt }) ?_ (.elsewhere rfl rfl)
    unfold moveStuck
    split
    · exact .of (.refl _)
    · exact (orderly_reportStuck orderly_oneFewerStuck ..).bind fun u => orderly_reportStuck orderly_oneMoreStuck ..
  · exact .of (.elsewhere rfl rfl)

theorem orderly_setPolarity (d : LineNo) (x : Polarity) (s : State) : Orderly s (setPolarity d x s) := by
  unfold setPolarity
  dsimp only
  split
  · exact .of (.elsewhere rfl rfl)
  · exact .after (orderly_takeTrailing ..) (.elsewhere rfl rfl)

theorem orderly_writeLanes (a : Approach) (v : Nat) (s : State) : Orderly s (writeLanes a v s) := by
  unfold writeLanes
  dsimp only
  refine .emit (.after (orderly_each fun l u => ?_) (.elsewhere rfl rfl)) (by simp [Signal.routine])
  split
  · exact .of (.refl u)
  · exact (orderly_putLane ..).bind fun u => orderly_deriveLane ..

theorem orderly_writeBayCapacity (a : Approach) (v : Nat) (s : State) : Orderly s (writeBayCapacity a v s) := by
  unfold writeBayCapacity
  dsimp only
  split
  · exact .of (.elsewhere rfl rfl)
  · exact .after ((orderly_putBay ..).bind fun u => orderly_deriveBay ..) (.elsewhere rfl rfl)

/-- R171: every write of an item is an orderly transition. -/
theorem orderly_writeItem (x : Item) (v : Nat) (s : State) : Orderly s (writeItem x v s) := by
  cases x with
  | lanes a => exact orderly_writeLanes ..
  | bayCapacity a => exact orderly_writeBayCapacity ..
  | lineAssign d => exact orderly_assignLine ..
  | linePolarity d => exact orderly_setPolarity ..
  | spanLimit i => exact orderly_writeMassLimit ..
  | spanCountLimit i => exact orderly_writeCountLimit ..
  | _ => exact .of (.elsewhere rfl rfl)

end Sys2Proof.Machine
end

section
namespace Sys2Proof.Machine

/-! ## Links, hearings, answers -/

theorem regular_updLink (s : State) (k : LinkNo) (f : LinkRec → LinkRec) : Regular s (s.updLink k f) :=
  .elsewhere rfl rfl

theorem regular_setEntry (s : State) (k : LinkNo) (p : PosNo) (e : Entry) : Regular s (s.setEntry k p e) :=
  .elsewhere rfl rfl

theorem regular_answer (s : State) (k : LinkNo) (f : Frame) (bytes : List Byte) : Regular s (s.answer k f bytes) :=
  .elsewhere (s.answer_modes k f bytes) (s.answer_part k f bytes)

theorem regular_failFrame (s : State) (k : LinkNo) (c : RxCheck) : Regular s (s.failFrame k c) :=
  .after (regular_raise ..) (regular_updLink ..)

/-- R152: a hearing is regular. -/
theorem regular_hear (s : State) (k : LinkNo) (p : PosNo) (save : Option RecordId) :
    Regular s (s.hear k p save) := by
  have reports : ∀ role was, ∀ g ∈ reportLive role was, g.routine = true := by
    intro role was
    cases role <;> cases was <;> simp [reportLive, Signal.routine]
  unfold State.hear
  split
  · exact .refl s
  · next role was _ =>
    have renewed : Regular s (settle { st := s.setEntry k p (s.renewed role), out := reportLive role was }) :=
      Orderly.settled ⟨regular_setEntry .., reports role was⟩
    dsimp only
    split
    · exact .after (orderly_resendFailed ..).settled renewed
    · exact renewed
    · exact renewed

/-- R157: an unbinding is regular. -/
theorem regular_unbind (s : State) (k : LinkNo) (p : PosNo) : Regular s (s.unbind k p) := by
  unfold State.unbind
  dsimp only
  split
  · exact .refl s
  · exact Orderly.settled ⟨regular_setEntry .., by simp [Signal.routine]⟩
  · exact Orderly.settled (.emit (.after (orderly_failOutstanding ..) (regular_setEntry ..)) (by simp [Signal.routine]))
  · exact regular_setEntry ..

theorem routine_judgeRole (role : Role) : ∀ g ∈ judgeRole role, g.routine = true := by
  cases role <;> simp [judgeRole, Signal.routine]

theorem regular_bindStation (s : State) (k : LinkNo) (p : PosNo) (role : Role) :
    Regular s (s.bindStation k p role) :=
  Orderly.settled ⟨.after (regular_setEntry ..) (regular_unbind ..), routine_judgeRole role⟩

theorem regular_setChain (s : State) (k : LinkNo) (n : Nat) : Regular s (s.setChain k n) := by
  unfold State.setChain
  dsimp only
  split
  · exact .after (regular_foldl _ _ _ fun u q => regular_unbind u k q) (regular_updLink ..)
  · exact regular_updLink ..

/-- R133: a part that is held in reset has its lines asserted. -/
theorem regular_beginReset (s : State) (kind : ResetKind) : Regular s (s.beginReset kind) := by
  have holds : ∀ a c, (s.beginReset kind).holds a c = s.holds a c := fun a c => by cases a <;> rfl
  refine ⟨fun _ a released => ?_, fun a => holds a _, fun h => ?_, fun a h => (holds a _).trans h, .inl rfl⟩
  · cases a <;> cases released
  · unfold OverloadShared
    rw [holds, holds]
    exact h

/-! ## What a request of the centre leaves -/

/-- The centre's own entry, the timebase and the straps as a frame's dealing leaves them (R150, R155, R157): a bound
centre stays bound. -/
structure CentreKept (s t : State) : Prop where
  time : t.now = s.now
  strap : t.centreLink = s.centreLink
  bound : (∃ l, s.entry s.centreLink 0 = .bound .centre l) → ∃ l, t.entry t.centreLink 0 = .bound .centre l

theorem CentreKept.refl (s : State) : CentreKept s s := ⟨rfl, rfl, id⟩

theorem CentreKept.trans {s t u : State} (h : CentreKept s t) (k : CentreKept t u) : CentreKept s u :=
  ⟨k.time.trans h.time, k.strap.trans h.strap, k.bound ∘ h.bound⟩

/-- The same, the later change first. -/
theorem CentreKept.after {s t u : State} (k : CentreKept t u) (h : CentreKept s t) : CentreKept s u := h.trans k

theorem CentreKept.of_directory {s t : State} (time : t.now = s.now) (strap : t.centreLink = s.centreLink)
    (directory : t.directory = s.directory) : CentreKept s t :=
  ⟨time, strap, by unfold State.entry; rw [strap, directory]; exact id⟩

theorem Outside.centreKept {s t : State} (h : Outside s t) : CentreKept s t :=
  .of_directory h.now h.centreLink h.directory

/-- What a request of the centre is dealt with by: the three laws are kept, and the centre stays bound. -/
structure Taken (s t : State) : Prop where
  laws : LawsKept s t
  centre : CentreKept s t

theorem Taken.refl (s : State) : Taken s s := ⟨.refl s, .refl s⟩

theorem Taken.after {s t u : State} (k : Taken t u) (h : Taken s t) : Taken s u :=
  ⟨h.laws.trans k.laws, h.centre.trans k.centre⟩

theorem Regular.taken {s t : State} (h : Regular s t) (k : Outside s t) : Taken s t := ⟨h.lawsKept, k.centreKept⟩

/-- What follows from an orderly transition. -/
theorem Orderly.taken {s : State} {e : Eff} (h : Orderly s e) (k : CentreKept s e.st) : Taken s (settle e) :=
  ⟨h.settled.lawsKept, k.trans (settle_outside e).centreKept⟩

/-- An entry that is written. -/
theorem State.entry_setEntry (s : State) (k j : LinkNo) (p q : PosNo) (e : Entry) :
    (s.setEntry k p e).entry j q = if j = k ∧ q = p then e else s.entry j q := by
  unfold State.entry State.setEntry
  dsimp only
  rw [upd_get]
  by_cases hj : j = k
  · rw [if_pos hj, upd_get]
    simp [hj]
  · simp [hj]

/-- The centre stays bound where its own entry is bound as the centre's, or another entry is written. -/
theorem centreKept_setEntry (s : State) {k : LinkNo} {p : PosNo} {e : Entry}
    (h : ¬ (k = s.centreLink ∧ p = 0) ∨ ∃ l, e = .bound .centre l) : CentreKept s (s.setEntry k p e) := by
  refine ⟨rfl, rfl, fun ⟨l, bound⟩ => ?_⟩
  rw [State.setEntry_centreLink, State.entry_setEntry]
  split
  · next same =>
    rcases h with h | ⟨l, h⟩
    · exact absurd ⟨same.1.symm, same.2.symm⟩ h
    · exact ⟨l, h⟩
  · exact ⟨l, bound⟩

/-- R154: a reply to the centre. -/
theorem regular_heardCentre (s : State) (k : LinkNo) (f : Frame) : Regular s (s.heardCentre k f) := by
  unfold State.heardCentre
  split
  · exact .refl s
  · exact regular_setEntry ..

theorem regular_reply (s : State) (k : LinkNo) (f : Frame) (bytes : List Byte) : Regular s (s.reply k f bytes) :=
  (regular_answer ..).after (regular_heardCentre s k f)

theorem taken_heardCentre (s : State) (k : LinkNo) (f : Frame) : Taken s (s.heardCentre k f) := by
  refine ⟨(regular_heardCentre s k f).lawsKept, ?_⟩
  unfold State.heardCentre
  split
  · exact .refl s
  · exact centreKept_setEntry s (.inr ⟨_, rfl⟩)

theorem taken_reply (s : State) (k : LinkNo) (f : Frame) (bytes : List Byte) : Taken s (s.reply k f bytes) :=
  ((regular_answer ..).taken (outside_answer ..)).after (taken_heardCentre s k f)

theorem taken_replyStatus (s : State) (k : LinkNo) (f : Frame) (st : Status) : Taken s (s.replyStatus k f st) :=
  taken_reply ..

/-! ## The requests of the centre -/

theorem centreKept_writeLanes (a : Approach) (v : Nat) (s : State) : CentreKept s (writeLanes a v s).st := by
  unfold writeLanes
  dsimp only
  refine .after (outside_each _ _ _ fun l u => ?_).centreKept (.of_directory rfl rfl rfl)
  split
  · exact .refl u
  · exact (outside_putLane ..).trans (outside_deriveLane ..)

theorem centreKept_writeBayCapacity (a : Approach) (v : Nat) (s : State) :
    CentreKept s (writeBayCapacity a v s).st := by
  unfold writeBayCapacity
  dsimp only
  split
  · exact .of_directory rfl rfl rfl
  · exact .after ((outside_putBay ..).trans (outside_deriveBay ..)).centreKept (.of_directory rfl rfl rfl)

theorem centreKept_assignLine (d : LineNo) (pt : Option Point) (s : State) : CentreKept s (assignLine d pt s).st := by
  unfold assignLine moveStuck reportStuck
  dsimp only
  repeat' split
  all_goals exact .of_directory rfl rfl rfl

theorem centreKept_setPolarity (d : LineNo) (x : Polarity) (s : State) : CentreKept s (setPolarity d x s).st := by
  unfold setPolarity takeTrailing reportStuck
  dsimp only
  repeat' split
  all_goals exact .of_directory rfl rfl rfl

theorem centreKept_writeMassLimit (i : SpanNo) (v : Nat) (s : State) : CentreKept s (writeMassLimit i v s).st := by
  unfold writeMassLimit
  dsimp only
  repeat' split
  all_goals exact .after (outside_evalOverload ..).centreKept (.of_directory rfl rfl rfl)

theorem centreKept_writeCountLimit (i : SpanNo) (v : Nat) (s : State) : CentreKept s (writeCountLimit i v s).st := by
  unfold writeCountLimit
  dsimp only
  repeat' split
  all_goals exact .after (outside_evalOverload ..).centreKept (.of_directory rfl rfl rfl)

/-- R171: no write of an item touches the directory. -/
theorem centreKept_writeItem (x : Item) (v : Nat) (s : State) : CentreKept s (writeItem x v s).st := by
  cases x with
  | lanes a => exact centreKept_writeLanes ..
  | bayCapacity a => exact centreKept_writeBayCapacity ..
  | lineAssign d => exact centreKept_assignLine ..
  | linePolarity d => exact centreKept_setPolarity ..
  | spanLimit i => exact centreKept_writeMassLimit ..
  | spanCountLimit i => exact centreKept_writeCountLimit ..
  | _ => exact .of_directory rfl rfl rfl

theorem taken_setItem (s : State) (x : Item) (v : Nat) : Taken s (s.setItem x v) := by
  unfold State.setItem
  split
  · exact .refl s
  · exact (orderly_writeItem x v s).taken (centreKept_writeItem x v s)

/-- R155: a binding that passes its checks is not of the strapped centre's position. -/
theorem checkBind_spares {s : State} {p : List Byte} {k : LinkNo} {q : PosNo} {role : Role}
    (h : s.checkBind p = .ok (k, q, role)) : ¬ (k = s.centreLink ∧ q = 0) := by
  unfold State.checkBind at h
  split at h
  · cases h
  · split at h
    · split at h
      · cases h
      · split at h
        · cases h
        · next spared =>
          split at h
          · cases h
          · split at h
            · cases h
            · cases h
              exact spared
    · cases h

/-- R157: the unbinding of a position that is not the strapped centre's. -/
theorem taken_unbind (s : State) {k : LinkNo} {p : PosNo} (h : ¬ (k = s.centreLink ∧ p = 0)) :
    Taken s (s.unbind k p) := by
  refine ⟨(regular_unbind s k p).lawsKept, ?_⟩
  have gone : CentreKept s (s.setEntry k p .unbound) := centreKept_setEntry s (.inl h)
  unfold State.unbind
  dsimp only
  split
  · exact .refl s
  · exact (settle_outside _).centreKept.after gone
  · exact (settle_outside _).centreKept.after ((outside_failOutstanding ..).centreKept.after gone)
  · exact gone

/-- R156: the binding of a position that is not the strapped centre's. -/
theorem taken_bindStation (s : State) {k : LinkNo} {q : PosNo} {role : Role} (h : ¬ (k = s.centreLink ∧ q = 0)) :
    Taken s (s.bindStation k q role) := by
  have free := taken_unbind s h
  refine ⟨(regular_bindStation ..).lawsKept, (settle_outside _).centreKept.after (.after ?_ free.centre)⟩
  exact centreKept_setEntry _ (.inl (by rw [free.centre.strap]; exact h))

/-- R13: what a closing leaves alone. -/
theorem closeTicket_only {s : State} {t : Ticket} (outcome : CloseOutcome) (ht : s.ticket t.handle = some t) :
    ClosingOnly s (closeTicket t.handle outcome s).st := by
  obtain ⟨-, -, -, -, -, -, -, -, -, -, -, -, -, -, -, -, -, only⟩ := closeTicket_closes outcome ht
  exact only

/-- R13: no closing touches the directory. -/
theorem centreKept_closeTicket (h : Handle) (outcome : CloseOutcome) (s : State) :
    CentreKept s (closeTicket h outcome s).st := by
  by_cases live : ∃ t, s.ticket h = some t
  · obtain ⟨t, ht⟩ := live
    have kept := closeTicket_only outcome (s := s) (t := t) (by rw [State.ticket_handle ht]; exact ht)
    rw [State.ticket_handle ht] at kept
    exact .of_directory (by unfold State.now; rw [kept]) (by rw [kept]) (by rw [kept])
  · have free : s.ticket h = none := Option.eq_none_iff_forall_ne_some.2 fun t ht => live ⟨t, ht⟩
    unfold closeTicket
    rw [free]
    exact .refl s

theorem taken_closeRequest (check : Ticket → Status) (outcome : CloseOutcome) (k : LinkNo) (f : Frame) (s : State) :
    Taken s (closeRequest check outcome k f s) := by
  unfold closeRequest
  split
  · exact taken_replyStatus ..
  split
  · exact taken_replyStatus ..
  · split
    · exact .after (taken_replyStatus ..) ((orderly_closeTicket ..).taken (centreKept_closeTicket ..))
    · exact taken_replyStatus ..

theorem taken_acceptEscort (s : State) (k : LinkNo) (f : Frame) (h : Handle) (x : EscortRequest) :
    Taken s (s.acceptEscort k f h x) := by
  have slot : Taken s (s.enterSlot (escortTicket h x.approach s.now x.speed x.axles)) := by
    have entered : Regular s (s.enterSlot (escortTicket h x.approach s.now x.speed x.axles)) := .elsewhere rfl rfl
    exact ⟨entered.lawsKept, .of_directory rfl rfl rfl⟩
  refine .after ⟨?_, (settle_outside _).centreKept⟩ (.after (taken_reply ..) slot)
  exact (Orderly.settled ⟨.refl _, by simp [Signal.routine]⟩).lawsKept

theorem taken_resetPart (s : State) (k : LinkNo) (f : Frame) : Taken s (s.resetPart k f) := by
  have begun : ∀ u : State, Taken u (u.beginReset .command) := fun u =>
    ⟨(regular_beginReset ..).lawsKept, .of_directory rfl rfl rfl⟩
  unfold State.resetPart
  dsimp only
  split
  · exact ((regular_updLink ..).taken (outside_enqueue ..)).after (taken_heardCentre s k f)
  · exact (begun _).after ((Regular.taken (.elsewhere (State.offer_modes ..) (State.offer_part ..))
      (outside_offer ..)).after (taken_heardCentre s k f))

/-! ## The part state (R174 to R178) -/

/-- R124: what is left by the report that the part has left RUNNING, or has entered it, with all that follows: PART_STATE
on both approaches, or on neither, the lines guarded, and OVERLOAD on both or on neither. -/
structure Switched (held : Bool) (s t : State) : Prop where
  lines : LinesGuarded s → LinesGuarded t
  partState : ∀ a, t.holds a .partState = held
  overload : OverloadShared s → OverloadShared t
  state : t.part.state = s.part.state ∨ s.part.state = .draining ∧ t.part.state = .unconfigured

theorem Switched.then {held : Bool} {s t u : State} (h : Switched held s t) (k : Regular t u) : Switched held s u where
  lines g := k.lines (h.lines g)
  partState a := (k.partState a).trans (h.partState a)
  overload g := k.overload (h.overload g)
  state := by
    have first := h.state
    have second := k.state
    grind

/-- R124: the report that the part has left RUNNING, or has entered it. -/
def switch (held : Bool) : Signal := if held = true then .leftRunning else .enteredRunning

theorem act_switch {held : Bool} {s t : State} (h : Regular s t) : Switched held s (act (switch held) t).st := by
  cases held
  · have left := removeCauseBoth_holds .partState t
    refine ⟨fun g => removeCauseBoth_lines _ t (h.lines g), fun a => by simp [switch, act, left], fun g => ?_, ?_⟩
    · have both := h.overload g
      simpa [OverloadShared, switch, act, left] using both
    · have same : (removeCauseBoth .partState t).st.part = t.part := removeCauseBoth_part ..
      simpa [switch, act, same] using h.state
  · have joined := addCauseBoth_holds .partState t rfl
    refine ⟨fun g => addCauseBoth_lines _ t rfl (h.lines g), fun a => by simp [switch, act, joined], fun g => ?_, ?_⟩
    · have both := h.overload g
      simpa [OverloadShared, switch, act, joined] using both
    · have same : (addCauseBoth .partState t).st.part = t.part := addCauseBoth_part _ t rfl
      simpa [switch, act, same] using h.state

/-- R124: a transition that reports a change of the part state among routine reports is settled. -/
theorem settle_switch (held : Bool) {s : State} {e : Eff} {gs gs' : List Signal} (h : Regular s e.st)
    (out : e.out = gs ++ switch held :: gs') (before : ∀ g ∈ gs, g.routine = true)
    (behind : ∀ g ∈ gs', g.routine = true) : Switched held s (settle e) := by
  refine settle_through (Regular s) (Switched held s) (fun g => g.routine = true)
    (fun g u usual hu => hu.trans (act_orderly u usual).regular)
    (fun g u usual hu => hu.then (act_orderly u usual).regular) (fun g u usual => (act_orderly u usual).routine)
    (fun u hu => ⟨act_switch hu, ?_⟩) (by cases held <;> rfl) out before behind h
  cases held
  · exact routine_removeCauseBoth _ u
  · exact routine_addCauseBoth _ u

/-- R174: the transition of a commit. -/
def commitment (s : State) : Eff :=
  ((Eff.each s.spansInUse (setPresumed SpanRec.massLimit) { s with part := { s.part with state := .clearing } }).map
    fun s => { s with part := { s.part with clearanceDue := some (after s.now (s.profile.clearance * 1000)) } }).emit
      [.weighLoss .A, .weighLoss .B]

theorem commit_eq (s : State) : s.commit = settle (commitment s) := rfl

/-- R175: the transition of the clearance's end. -/
def clearance (s : State) : Eff :=
  (Eff.each s.spansInUse (setPresumed fun _ => 0)
    { s with part := { s.part with state := .running, clearanceDue := none } }).emit [.enteredRunning, .arbiter]

theorem clear_eq (s : State) : s.clear = settle (clearance s) := rfl

theorem outside_presumed (p : SpanRec → Nat) (is : List SpanNo) (s : State) :
    Outside s (Eff.each is (setPresumed p) s).st :=
  outside_each _ _ _ fun i _ => (outside_updSpan ..).trans (outside_evalOverload none 0 i _)

theorem orderly_commitment (s : State) :
    Orderly { s with part := { s.part with state := .clearing } } (commitment s) :=
  Orderly.emit (.map (orderly_each (orderly_setPresumed _)) fun _ => regular_part _ _ rfl rfl)
    (by simp [Signal.routine])

/-- R174: a commit. -/
theorem taken_commit (s : State) (h : s.part.state = .unconfigured) : Taken s s.commit := by
  have clearing : LawsKept s { s with part := { s.part with state := .clearing } } :=
    ⟨id, fun held _ => held (by rw [h]; decide), id⟩
  rw [commit_eq]
  refine ⟨clearing.trans (orderly_commitment s).settled.lawsKept, (settle_outside _).centreKept.after ?_⟩
  have presumed := outside_presumed SpanRec.massLimit s.spansInUse { s with part := { s.part with state := .clearing } }
  have started : CentreKept s (Eff.each s.spansInUse (setPresumed SpanRec.massLimit)
      { s with part := { s.part with state := .clearing } }).st := presumed.centreKept.after (.of_directory rfl rfl rfl)
  exact ⟨started.time, started.strap, started.bound⟩

/-- R124: a RUNNING part need hold no PART_STATE. -/
theorem Switched.runs {s t : State} (h : Switched false s t) (running : s.part.state = .running) : LawsKept s t := by
  refine ⟨h.lines, fun _ away => absurd ?_ away, h.overload⟩
  rcases h.state with e | ⟨e, -⟩
  · exact e.trans running
  · rw [running] at e
    cases e

/-- R124: a part that is not RUNNING holds PART_STATE. -/
theorem Switched.halts {s t : State} (h : Switched true s t) : LawsKept s t :=
  ⟨h.lines, fun _ _ => h.partState, h.overload⟩

/-- A change of the part state alone keeps the laws where the part is then RUNNING. -/
theorem lawsKept_running {s : State} {x : Part} (state : x.state = .running) (held : x.held = s.part.held) :
    LawsKept s { s with part := x } := by
  refine ⟨fun h a released => ?_, fun _ away => absurd state away, id⟩
  obtain ⟨out, empty⟩ := h a released
  refine ⟨?_, empty⟩
  unfold State.inReset at out ⊢
  rw [← out, held]

theorem switched_clearance (s : State) :
    Switched false { s with part := { s.part with state := .running, clearanceDue := none } } (settle (clearance s)) := by
  have presumed := orderly_each (xs := s.spansInUse) (s := { s with part := { s.part with state := .running, clearanceDue := none } })
    fun i u => orderly_setPresumed (fun _ => 0) i u
  exact settle_switch false presumed.regular rfl presumed.routine (by simp [Signal.routine])

/-- R175: the clearance's end. -/
theorem lawsKept_clear (s : State) : LawsKept s s.clear :=
  .trans (lawsKept_running (x := { s.part with state := .running, clearanceDue := none }) rfl rfl)
    ((switched_clearance s).runs rfl)

/-- R178: a RESUME. -/
theorem taken_resume (s : State) : Taken s s.resume := by
  have resumed : Switched false { s with part := { s.part with state := .running } } s.resume :=
    settle_switch false (gs := []) (.refl _) rfl (fun _ h => nomatch h) (by simp [Signal.routine])
  exact ⟨.trans (lawsKept_running (x := { s.part with state := .running }) rfl rfl) (resumed.runs rfl),
    (settle_outside _).centreKept.after (.of_directory rfl rfl rfl)⟩

theorem regular_cancelSlot (s : State) : Regular s s.cancelSlot := by
  unfold State.cancelSlot
  split
  · exact .refl s
  · exact (orderly_closeTicket ..).settled

theorem centreKept_cancelSlot (s : State) : CentreKept s s.cancelSlot := by
  unfold State.cancelSlot
  split
  · exact .refl s
  · exact (settle_outside _).centreKept.after (centreKept_closeTicket ..)

/-- R176: a RECONFIGURE. -/
theorem taken_reconfigure (s : State) : Taken s s.reconfigure := by
  have left : Switched true { s with part := { s.part with state := .draining } }
      (settle { st := { s with part := { s.part with state := .draining } }, out := [.leftRunning] }) :=
    settle_switch true (gs := []) (.refl _) rfl (fun _ h => nomatch h) (fun _ h => nomatch h)
  have drains := (left.then (regular_cancelSlot _)).then (regular_drained _)
  have kept := drains.halts
  refine ⟨⟨kept.lines, fun _ _ => drains.partState, kept.overload⟩, (outside_drained _).centreKept.after
    ((centreKept_cancelSlot _).after ((settle_outside _).centreKept.after (.of_directory rfl rfl rfl)))⟩

end Sys2Proof.Machine
end

section
namespace Sys2Proof.Machine

/-! ## The requests of the centre, and the commands -/

/-- A request that the part takes from its centre alone (R151), with its link and its frame. -/
def Instr.request : Instr → Option (LinkNo × Frame)
  | .queryPart k f | .querySpan k f | .queryTicket k f | .queryStation k f | .queryLink k f | .queryLine k f
  | .readProfileItem k f | .readEvents k f | .collectClose k f | .setProfileItem k f | .commitProfile k f
  | .reconfigure k f | .resume k f | .bindStation k f | .unbindStation k f | .setApproach k f | .setAlertMask k f
  | .escort k f | .cancelEscort k f | .writeOff k f | .acknowledgeOverload k f | .resetPart k f => some (k, f)
  | _ => none

theorem taken_centre (s : State) (x : Centre) : Taken s { s with centre := x } :=
  ⟨Regular.lawsKept (t := { s with centre := x }) (.elsewhere rfl rfl), .of_directory rfl rfl rfl⟩

theorem taken_updTable (s : State) (g : Table → Table) : Taken s (s.updTable g) :=
  (regular_updTable s g).taken (outside_updTable s g)

theorem taken_setApproach (s : State) (a : Approach) (close : Bool) : Taken s (s.setApproach a close) := by
  unfold State.setApproach
  split
  · exact (orderly_addCause a s (by decide)).taken (outside_addCause ..).centreKept
  · exact (orderly_removeCause a s (by decide)).taken (outside_removeCause ..).centreKept

theorem taken_acknowledge (s : State) : Taken s (settle { st := s, out := [.overloadAcknowledged] }) :=
  Orderly.taken ⟨.refl s, by simp [Signal.routine]⟩ (.refl s)

/-- R151: every request is taken from the centre alone, and keeps the laws and the centre's entry. -/
theorem request_taken {i : Instr} {k : LinkNo} {f : Frame} (h : Instr.request i = some (k, f)) :
    ∃ take : State → State, (∀ s, exec i s = centreRequest k f take s) ∧ ∀ s, Taken s (take s) := by
  cases i with
  | queryPart | querySpan | queryTicket | queryStation | queryLink | queryLine | readProfileItem =>
    cases h
    refine ⟨_, fun _ => rfl, fun s => ?_⟩
    repeat' split
    all_goals exact taken_reply ..
  | readEvents =>
    cases h
    refine ⟨_, fun _ => rfl, fun s => ?_⟩
    split
    · exact taken_reply ..
    · exact (taken_reply ..).after (taken_centre ..)
  | collectClose =>
    cases h
    refine ⟨_, fun _ => rfl, fun s => ?_⟩
    split
    · exact taken_reply ..
    · split
      · exact taken_reply ..
      · exact (taken_reply ..).after (taken_updTable ..)
  | setProfileItem =>
    cases h
    refine ⟨_, fun _ => rfl, fun s => ?_⟩
    split
    · exact taken_reply ..
    · exact (taken_reply ..).after (taken_setItem ..)
  | commitProfile =>
    cases h
    refine ⟨_, fun _ => rfl, fun s => ?_⟩
    split
    · exact taken_reply ..
    · split
      · exact taken_reply ..
      · next unconfigured =>
        split
        · exact taken_reply ..
        · exact (taken_reply ..).after (taken_commit s (Decidable.not_not.1 unconfigured))
  | reconfigure =>
    cases h
    refine ⟨_, fun _ => rfl, fun s => ?_⟩
    split
    · exact taken_reply ..
    · split
      · exact taken_reply ..
      · exact (taken_reply ..).after (taken_reconfigure s)
  | resume =>
    cases h
    refine ⟨_, fun _ => rfl, fun s => ?_⟩
    split
    · exact taken_reply ..
    · split
      · exact taken_reply ..
      · exact (taken_reply ..).after (taken_resume s)
  | bindStation =>
    cases h
    refine ⟨_, fun _ => rfl, fun s => ?_⟩
    split
    · exact taken_reply ..
    · next checked => exact (taken_reply ..).after (taken_bindStation s (checkBind_spares checked))
  | unbindStation =>
    cases h
    refine ⟨_, fun _ => rfl, fun s => ?_⟩
    split
    · exact taken_reply ..
    · split
      · exact taken_reply ..
      · split
        · exact taken_reply ..
        · next spared => exact (taken_reply ..).after (taken_unbind s spared)
  | setApproach =>
    cases h
    refine ⟨_, fun _ => rfl, fun s => ?_⟩
    split
    · exact taken_reply ..
    · split
      · exact taken_reply ..
      · exact (taken_reply ..).after (taken_setApproach ..)
  | setAlertMask =>
    cases h
    refine ⟨_, fun _ => rfl, fun s => ?_⟩
    dsimp only
    split
    · exact taken_reply ..
    · exact (taken_reply ..).after (taken_centre ..)
  | escort =>
    cases h
    refine ⟨_, fun _ => rfl, fun s => ?_⟩
    split
    · exact taken_reply ..
    · split
      · exact (taken_reply ..).after ((taken_updTable ..).after ((regular_raise ..).taken (outside_raise ..)))
      · exact taken_acceptEscort ..
  | cancelEscort | writeOff =>
    cases h
    exact ⟨_, fun _ => rfl, fun s => taken_closeRequest ..⟩
  | acknowledgeOverload =>
    cases h
    refine ⟨_, fun _ => rfl, fun s => ?_⟩
    split
    · exact taken_reply ..
    · split
      · exact taken_reply ..
      · split
        · exact taken_reply ..
        · exact (taken_reply ..).after (taken_acknowledge s)
  | resetPart =>
    cases h
    refine ⟨_, fun _ => rfl, fun s => ?_⟩
    split
    · exact taken_reply ..
    · exact taken_resetPart ..
  | _ => cases h

end Sys2Proof.Machine
end

section
namespace Sys2Proof.Machine

/-! ## Every command -/

/-- A meaning keeps the three laws. -/
def KeepsLaws (s : State) (o : Host.Outcome State Fault Refusal) : Prop := ∀ t, o = .next t → LawsKept s t

theorem keepsLaws_next {s t : State} (h : LawsKept s t) : KeepsLaws s (.next t) := by
  intro u e
  cases e
  exact h

theorem keepsLaws_awake {s u : State} {f : State → State} (h : LawsKept s u) (k : LawsKept u (f u)) :
    KeepsLaws s (awake u f) := by
  refine keepsLaws_next (h.trans ?_)
  split
  · exact .refl u
  · exact k

/-- R139 to R141, R151, R152: a frame that comes keeps the laws where its dealing does. -/
theorem lawsKept_receive (s : State) (k : LinkNo) (f : Frame) (save : PosNo → Option RecordId)
    {deal : PosNo → State → State} (h : ∀ p u, LawsKept u (deal p u)) : LawsKept s (s.receive k f save deal) := by
  unfold State.receive
  split
  · exact .refl s
  · dsimp only
    have ended := regular_updLink s k LinkRec.endReception
    split
    · exact (ended.trans (regular_failFrame ..)).lawsKept
    · split
      · exact ended.lawsKept
      · exact ended.lawsKept.trans ((h _ _).trans (regular_hear ..).lawsKept)

theorem keepsLaws_frame (s : State) (k : LinkNo) (f : Frame) (save : State → PosNo → Option RecordId)
    {deal : PosNo → State → State} (h : ∀ p u, Regular u (deal p u)) :
    KeepsLaws s (awake s fun s => s.receive k f (save s) deal) :=
  keepsLaws_awake (.refl s) (lawsKept_receive s k f (save s) fun p u => (h p u).lawsKept)

/-- R151: a request of the centre keeps the laws where its taking does. -/
theorem keepsLaws_centreRequest (s : State) (k : LinkNo) (f : Frame) {take : State → State}
    (h : ∀ u, LawsKept u (take u)) : KeepsLaws s (centreRequest k f take s) := by
  refine keepsLaws_awake (.refl s) (lawsKept_receive s k f _ fun p u => ?_)
  split
  · exact h u
  all_goals exact (regular_answer ..).lawsKept

/-- R19: a refused weigh record. -/
theorem regular_refuseWeigh (s : State) (k : LinkNo) (f : Frame) (a : Approach) (st : Status) :
    Regular s (s.refuseWeigh k f a st) := by
  refine Orderly.settled ⟨regular_answer .., ?_⟩
  dsimp only
  split <;> simp [Signal.routine]

theorem regular_evaluate (s : State) (t : Ticket) : Regular s (s.evaluate t) := by
  unfold State.evaluate
  dsimp only
  split
  · exact (regular_placeUnforced ..).after (regular_updTicket ..)
  · exact (regular_setHold ..).after (regular_updTicket ..)
  · exact regular_updTicket ..

/-- R18 to R22: a weigh record. -/
theorem regular_takeWeigh (s : State) (k : LinkNo) (f : Frame) (a : Approach) (lanes : BitVec 3) :
    Regular s (s.takeWeigh k f a lanes) := by
  unfold State.takeWeigh
  split
  · exact regular_refuseWeigh ..
  · split
    · exact (regular_refuseWeigh ..).after ((regular_updTable ..).after (regular_raise ..))
    · next h _ =>
      refine Orderly.settled ⟨(regular_answer ..).after ?_, by simp [Signal.routine]⟩
      exact (regular_setDue ..).after ((regular_updPlaces ..).after ((regular_evaluate ..).after (.elsewhere rfl rfl)))

/-- R113, R114: an answer of a gantry. -/
theorem regular_takeAnswer (s : State) (k : LinkNo) (f : Frame) (a : Approach) : Regular s (s.takeAnswer k f a) := by
  unfold State.takeAnswer
  split
  · split
    · exact (orderly_shownRecord ..).settled
    · exact (orderly_lostRecord ..).settled
  · exact (regular_raise ..).after (regular_updLink ..)

theorem regular_updLine (s : State) (d : LineNo) (f : LineRec → LineRec) : Regular s (s.updLine d f) :=
  .elsewhere rfl rfl

/-- R54: a due of the deadline list is delivered. -/
theorem keepsLaws_deliverDue (kind : DueKind) {take : Deadline → State → Eff} (s : State)
    (h : ∀ d u, Orderly u (take d u)) : KeepsLaws s (deliverDue kind take s) := by
  refine keepsLaws_awake (.refl s) ?_
  split
  · exact .refl s
  · next d u taken =>
    obtain ⟨ds, -, -, -, rfl⟩ := State.takeDue_some taken
    exact Regular.lawsKept (.after (h d _).settled (.elsewhere rfl rfl))

theorem orderly_gantryDueCome (d : Deadline) (s : State) : Orderly s (gantryDueCome d s) := by
  unfold gantryDueCome
  split
  · exact .of (.refl s)
  · exact orderly_passGantry ..

theorem orderly_releaseDueCome (d : Deadline) (s : State) : Orderly s (releaseDueCome d s) := by
  unfold releaseDueCome
  split
  · exact .of (.refl s)
  · exact orderly_exitBay ..

theorem orderly_entryDueCome (d : Deadline) (s : State) : Orderly s (entryDueCome d s) := by
  unfold entryDueCome
  split
  · exact .of (.refl s)
  · split
    · exact orderly_closeTicket ..
    · exact orderly_enterViaduct ..

theorem orderly_spanDueCome (d : Deadline) (s : State) : Orderly s (spanDueCome d s) := by
  unfold spanDueCome
  split
  · exact .of (.refl s)
  · exact .of ((regular_raise ..).after (regular_updTicket ..))

/-- R126: the loss-until time of an approach. -/
theorem keepsLaws_lossUntil (a : Approach) (s : State) : KeepsLaws s (execLossUntil a s) := by
  refine keepsLaws_awake (.refl s) ?_
  split
  · have moved := regular_updMode s a (fun m => { m with lossUntil := none }) fun _ => ⟨rfl, rfl⟩
    generalize s.updMode a (fun m => { m with lossUntil := none }) = u at moved ⊢
    have held := removeCause_holds a .weighLoss u
    have kept : LawsKept u (removeCause a .weighLoss u).st := by
      refine ⟨removeCause_lines a _ u, fun h away b => ?_, fun h => ?_⟩
      · rw [removeCause_part] at away
        simpa [held] using h away b
      · simpa [OverloadShared, held] using h
    have follows : Regular (removeCause a .weighLoss u).st (settle (removeCause a .weighLoss u)) :=
      Orderly.settled ⟨.refl _, routine_removeCause a .weighLoss u⟩
    exact moved.lawsKept.trans (kept.trans follows.lawsKept)
  · exact .refl s

/-- R119, R133, R179: the end of a reset. -/
theorem keepsLaws_resetEnd (x y : Bool) (s : State) : KeepsLaws s (execResetEnd x y s) := by
  refine keepsLaws_next ?_
  split
  · exact .refl s
  · next kind _ =>
    have values : LawsKept s (s.resetValues kind (strappedLink x y)) := by
      refine ⟨fun _ a released => ?_, fun _ _ a => ?_, fun _ => rfl⟩
      · cases a <;> cases released
      · show member ((Both.mk Mode.reset Mode.reset).get a).causes _ = true
        cases a <;> decide
    have derived : Orderly (s.resetValues kind (strappedLink x y))
        ((deriveLanes .A (s.resetValues kind (strappedLink x y))).bind (deriveLanes .B)) :=
      (orderly_deriveLanes ..).bind fun u => orderly_deriveLanes ..
    refine values.trans (Regular.lawsKept (.after (regular_foldl _ _ _ fun u d => ?_) derived.settled))
    unfold State.edgeAtResetEnd
    split
    · exact regular_updLine ..
    · exact .refl u

/-! ## Command by command -/

theorem keepsLaws_weighRecord (k : LinkNo) (f : Frame) (s : State) : KeepsLaws s (execWeighRecord k f s) := by
  refine keepsLaws_frame s k f (fun _ _ => none) fun p u => ?_
  split
  · exact regular_takeWeigh ..
  all_goals exact regular_answer ..

theorem keepsLaws_keepalive (k : LinkNo) (f : Frame) (s : State) : KeepsLaws s (execKeepalive k f s) := by
  refine keepsLaws_frame s k f (fun _ _ => none) fun p u => ?_
  repeat' split
  all_goals exact regular_answer ..

theorem keepsLaws_chainSet (k : LinkNo) (f : Frame) (s : State) : KeepsLaws s (execChainSet k f s) := by
  refine keepsLaws_frame s k f (fun _ _ => none) fun p u => ?_
  dsimp only
  split
  · exact regular_setChain ..
  · exact .refl u

theorem keepsLaws_answer (k : LinkNo) (f : Frame) (s : State) : KeepsLaws s (execAnswer k f s) := by
  refine keepsLaws_frame s k f (fun s p => s.failedByAnswer k f p) fun p u => ?_
  split
  · exact regular_takeAnswer ..
  · exact .refl u

theorem keepsLaws_unknownKind (k : LinkNo) (code : Byte) (f : Frame) (s : State) :
    KeepsLaws s (execUnknownKind k code f s) :=
  keepsLaws_frame s k f (fun _ _ => none) fun _ _ => regular_answer ..

theorem keepsLaws_receiveCheckFailed (k : LinkNo) (r : Reception) (s : State) :
    KeepsLaws s (execReceiveCheckFailed k r s) := by
  unfold execReceiveCheckFailed
  refine keepsLaws_awake (.refl s) ?_
  split
  · exact .refl s
  · dsimp only
    split
    · exact Regular.lawsKept ((regular_failFrame ..).after (regular_updLink ..))
    · exact (regular_updLink ..).lawsKept

theorem keepsLaws_transmitStart (k : LinkNo) (s : State) : KeepsLaws s (execTransmitStart k s) := by
  unfold execTransmitStart
  refine keepsLaws_awake (.refl s) ?_
  split
  · exact (regular_updLink ..).lawsKept
  · exact .refl s

theorem keepsLaws_frameSent (k : LinkNo) (s : State) : KeepsLaws s (execFrameSent k s) := by
  unfold execFrameSent
  refine keepsLaws_awake (.refl s) ?_
  split
  · dsimp only
    split
    · exact Regular.lawsKept ((regular_beginReset ..).after (regular_updLink ..))
    · exact (regular_updLink ..).lawsKept
  · exact .refl s

theorem keepsLaws_leadingEdge (d : LineNo) (s : State) : KeepsLaws s (execLeadingEdge d s) := by
  unfold execLeadingEdge
  exact keepsLaws_awake (regular_updLine s d _).lawsKept (regular_updLine ..).lawsKept

theorem keepsLaws_trailingEdge (d : LineNo) (s : State) : KeepsLaws s (execTrailingEdge d s) := by
  unfold execTrailingEdge
  exact keepsLaws_awake (regular_updLine s d _).lawsKept (orderly_takeTrailing ..).settled.lawsKept

theorem keepsLaws_lineConfirmDue (d : LineNo) (s : State) : KeepsLaws s (execLineConfirmDue d s) := by
  unfold execLineConfirmDue
  refine keepsLaws_awake (.refl s) ?_
  split
  · exact Regular.lawsKept (.after (orderly_deliverLine ..).settled (regular_updLine ..))
  · exact .refl s

theorem keepsLaws_stuckDue (d : LineNo) (s : State) : KeepsLaws s (execStuckDue d s) := by
  unfold execStuckDue
  refine keepsLaws_awake (.refl s) ?_
  split
  · exact Regular.lawsKept (.after (orderly_reportStuck orderly_oneMoreStuck ..).settled (regular_updLine ..))
  · exact .refl s

theorem keepsLaws_orderConfirmDue (a : Approach) (r : RecordId) (s : State) :
    KeepsLaws s (execOrderConfirmDue a r s) := by
  unfold execOrderConfirmDue
  refine keepsLaws_awake (.refl s) ?_
  split
  · exact (orderly_lostRecord ..).settled.lawsKept
  · exact .refl s

theorem keepsLaws_silenceDue (k : LinkNo) (p : PosNo) (s : State) : KeepsLaws s (execSilenceDue k p s) := by
  unfold execSilenceDue
  refine keepsLaws_awake (.refl s) ?_
  split
  · unfold State.silence
    split
    · exact .refl s
    · exact (Orderly.settled ⟨regular_setEntry .., routine_judgeRole _⟩).lawsKept
  · exact .refl s

theorem keepsLaws_reportDue (s : State) : KeepsLaws s (execReportDue s) := by
  unfold execReportDue
  refine keepsLaws_awake (.refl s) ?_
  split
  · exact .refl s
  · split
    · exact Regular.lawsKept (.after (regular_notify ..) (.elsewhere rfl rfl))
    · exact .refl s

theorem keepsLaws_clearanceDue (s : State) : KeepsLaws s (execClearanceDue s) := by
  unfold execClearanceDue
  refine keepsLaws_awake (.refl s) ?_
  split
  · exact lawsKept_clear s
  · exact .refl s

/-- R124, R130, R133: every command keeps the three laws. -/
theorem exec_keepsLaws (i : Instr) (s : State) : KeepsLaws s (exec i s) := by
  cases hr : Instr.request i with
  | some kf =>
    obtain ⟨take, meaning, taken⟩ := request_taken hr
    rw [meaning]
    exact keepsLaws_centreRequest s _ _ fun u => (taken u).laws
  | none =>
    cases i with
    | weighRecord k f => exact keepsLaws_weighRecord k f s
    | keepalive k f => exact keepsLaws_keepalive k f s
    | chainSet k f => exact keepsLaws_chainSet k f s
    | answer k f => exact keepsLaws_answer k f s
    | unknownKind k code f => exact keepsLaws_unknownKind k code f s
    | receiveCheckFailed k r => exact keepsLaws_receiveCheckFailed k r s
    | transmitStart k => exact keepsLaws_transmitStart k s
    | frameSent k => exact keepsLaws_frameSent k s
    | leadingEdge d => exact keepsLaws_leadingEdge d s
    | trailingEdge d => exact keepsLaws_trailingEdge d s
    | lineConfirmDue d => exact keepsLaws_lineConfirmDue d s
    | stuckDue d => exact keepsLaws_stuckDue d s
    | gantryDue => exact keepsLaws_deliverDue _ s orderly_gantryDueCome
    | bayLimit => exact keepsLaws_deliverDue _ s fun d => orderly_bayLimitCome d.handle
    | releaseDue => exact keepsLaws_deliverDue _ s orderly_releaseDueCome
    | entryDue => exact keepsLaws_deliverDue _ s orderly_entryDueCome
    | watchEnd => exact keepsLaws_deliverDue _ s fun d => orderly_closeTicket d.handle .complied
    | spanDue => exact keepsLaws_deliverDue _ s orderly_spanDueCome
    | waitLimit => exact keepsLaws_deliverDue _ s fun d => orderly_closeTicket d.handle .lapsed
    | orderConfirmDue a r => exact keepsLaws_orderConfirmDue a r s
    | silenceDue k p => exact keepsLaws_silenceDue k p s
    | lossUntil a => exact keepsLaws_lossUntil a s
    | reportDue => exact keepsLaws_reportDue s
    | clearanceDue => exact keepsLaws_clearanceDue s
    | supplyReset => exact keepsLaws_next (regular_beginReset ..).lawsKept
    | lineReset => exact keepsLaws_next (regular_beginReset ..).lawsKept
    | resetEnd x y => exact keepsLaws_resetEnd x y s
    | _ => cases hr

/-- R124, R130, R133: every step keeps the three laws. -/
theorem step_keepsLaws (s : State) : KeepsLaws s (step s) := by
  unfold step
  split
  · refine keepsLaws_next ?_
    unfold State.tick
    split
    · exact .refl s
    · exact (regular_part s { s.part with timebase := s.part.timebase + 1 } rfl rfl).lawsKept
  · next c cs _ =>
    intro t e
    have waits : LawsKept s { s with pending := cs } := Regular.lawsKept (.elsewhere rfl rfl)
    exact waits.trans (exec_keepsLaws c _ t e)

/-- Settles O58: no change of a cause set, and no reset, leaves a line released where it must not be. -/
theorem everyStepGuardsTheDivertAllLines : Obligations.EveryStepGuardsTheDivertAllLines :=
  fun s t guarded next => (step_keepsLaws s t next).lines guarded

/-- Settles O59: PART_STATE and OVERLOAD join and leave both sets in the one change. -/
theorem everyStepKeepsTheSharedCauses : Obligations.EveryStepKeepsTheSharedCauses :=
  fun s t next => ⟨(step_keepsLaws s t next).partState, (step_keepsLaws s t next).overload⟩

end Sys2Proof.Machine
end

section
/-! SUPPORT. Approach mode control's judgements, the silence of stations (R125, R127, R153, R154), and the beginning of
resets (R133, R179, R180). -/

namespace Sys2Proof.Machine

/-! ## Judgements -/

theorem mem_positions (k : LinkNo) (p : PosNo) : (k, p) ∈ allPositions := by
  revert k p
  decide

/-- R125: a lane is served by a bound and LIVE weigh station of the approach that has it in its lane set. -/
theorem served_iff (s : State) (a : Approach) (l : LaneNo) : s.served a l = true ↔
    ∃ (k : LinkNo) (p : PosNo) (lanes : BitVec 3) (due : Time),
      s.entry k p = .bound (.weigh a lanes) (.live due) ∧ lanes.getLsbD l.val = true := by
  unfold State.served
  rw [List.any_eq_true]
  constructor
  · rintro ⟨⟨k, p⟩, -, h⟩
    split at h
    · next b lanes due e =>
      obtain ⟨rfl, held⟩ : b = a ∧ member lanes l.val = true := by simpa using h
      exact ⟨k, p, lanes, due, e, held⟩
    all_goals cases h
  · rintro ⟨k, p, lanes, due, e, held⟩
    refine ⟨(k, p), mem_positions k p, ?_⟩
    dsimp only
    rw [e]
    simpa [member] using held

/-- R125: WEIGH_SILENT is judged by whether every lane in use is served. -/
theorem allServed_iff (s : State) (a : Approach) :
    (allLanes.all fun l => !s.laneInUse a l || s.served a l) = true
      ↔ ∀ l : LaneNo, l.val < s.profile.lanes.get a → s.served a l = true := by
  have all : ∀ l : LaneNo, l ∈ allLanes := by decide
  simp only [List.all_eq_true, Bool.or_eq_true, Bool.not_eq_true', State.laneInUse, decide_eq_false_iff_not]
  exact ⟨fun h l used => (h l (all l)).resolve_left fun unused => unused used,
    fun h l _ => Decidable.or_iff_not_imp_left.2 fun used => h l (Decidable.not_not.1 used)⟩

/-- R127: the gantry of an approach is LIVE. -/
theorem gantryLive_of {s : State} {a : Approach} {k : LinkNo} {p : PosNo} (h : s.gantryOf a = some (k, p)) :
    s.gantryLive a = (s.entry k p).isLive := by
  unfold State.gantryLive
  rw [h]

/-- R111: an approach without a gantry entry has no gantry. -/
theorem gantryOf_eq_none {s : State} {a : Approach} (h : ∀ k p l, s.entry k p ≠ .bound (.gantry a) l) :
    s.gantryOf a = none := by
  unfold State.gantryOf
  rw [List.find?_eq_none]
  rintro ⟨k, p⟩ - found
  dsimp only at found
  split at found
  · next b l e =>
    rw [of_decide_eq_true found] at e
    exact h k p l e
  all_goals cases found

theorem judgeGantryFault_of_silent {s : State} {a : Approach} (h : s.gantryLive a = false) :
    judgeGantryFault a s = addCause a .gantryFault s := by
  unfold judgeGantryFault
  rw [h, if_neg fun k => Bool.false_ne_true k.1]

/-- R153, R154: the reports of a role's silence. -/
theorem silenceDue_of {k : LinkNo} {p : PosNo} {s : State} {role : Role} {due : Time} (out : s.inReset = false)
    (live : s.entry k p = .bound role (.live due)) (come : hasCome s.now due = true) :
    exec (.silenceDue k p) s
      = .next (settle { st := s.setEntry k p (.bound role .silent), out := judgeRole role }) := by
  show execSilenceDue k p s = _
  unfold execSilenceDue
  rw [awake_of out]
  unfold State.silence Entry.fallsSilent
  simp only [live, come, if_true]

/-- Settles O15: the entry's role says what is reported, and each judgement adds or removes the one cause. -/
theorem silentStationsAreJudged : Obligations.SilentStationsAreJudged := by
  refine ⟨fun k p s role due out live come => ?_, fun a s => ?_⟩
  · rw [silenceDue_of out live come]
    cases role <;> rfl
  · have served : ∀ l, s.served a l = true ↔ _ := served_iff s a
    have judged := allServed_iff s a
    simp only [served] at judged
    refine ⟨fun all => if_pos (judged.2 all), fun some' => if_neg (mt judged.1 some'), fun k p due gantry live => ?_,
      fun k p gantry silent => ?_, fun unbound => ?_⟩
    · have lives : s.gantryLive a = true := by rw [gantryLive_of gantry, live]; rfl
      exact ⟨fun sound => if_pos ⟨lives, sound⟩, fun failed => if_neg fun h => failed h.2⟩
    · exact judgeGantryFault_of_silent (by rw [gantryLive_of gantry, silent]; rfl)
    · have noGantry := gantryOf_eq_none unbound
      exact ⟨noGantry, judgeGantryFault_of_silent (by unfold State.gantryLive; rw [noGantry])⟩

/-! ## Resets begin (R133, R179, R180) -/

/-- R179: of kinds that overlap, SUPPLY stands before LINE, and LINE before COMMAND. -/
theorem stronger_eq (held : Option ResetKind) (kind : ResetKind) : stronger held kind
    = if held = some .supply ∨ kind = .supply then .supply
      else if held = some .line ∨ kind = .line then .line else .command := by
  cases held with
  | none => cases kind <;> decide
  | some x => cases x <;> cases kind <;> decide

/-- R133, R179: what a part held in reset leaves of its links. -/
theorem beginReset_link (s : State) (kind : ResetKind) (k : LinkNo) :
    (s.beginReset kind).link k = (s.link k).held := by
  show (s.links.map LinkRec.held).get k = _
  exact Vector.getElem_map ..

/-- R133, R179: what a part held in reset by a kind is, that was another state before. -/
structure HeldInReset (s t : State) (kind : ResetKind) : Prop where
  part : t.part = { s.part with held := some (if s.part.held = some .supply ∨ kind = .supply then .supply
    else if s.part.held = some .line ∨ kind = .line then .line else .command) }
  links : ∀ k, (t.link k).queue = [] ∧ (t.link k).lineState = .listening
  lines : ∀ a, (t.mode a).lineAsserted = true

/-- R133, R179: what the beginning of a reset leaves. -/
theorem beginReset_held {s u : State} (kind : ResetKind) (same : u.part = s.part) :
    HeldInReset s (u.beginReset kind) kind := by
  refine ⟨?_, fun k => ?_, fun a => by cases a <;> rfl⟩
  · rw [← stronger_eq, ← same]
    rfl
  · rw [beginReset_link]
    exact ⟨rfl, rfl⟩

/-- A hearing's renewal leaves the reset standing. -/
theorem HeldInReset.heard {s t : State} {kind : ResetKind} (h : HeldInReset s t kind) (k : LinkNo) (p : PosNo)
    (role : Role) : HeldInReset s (t.heardFrom k p role) kind := ⟨h.part, h.links, h.lines⟩

/-- R180: a RESET PART without a payload is dealt with, and is then a hearing. -/
theorem resetPart_of {f : Frame} {s : State} {l : Liveness} (asks : CentreAsks s f l) (empty : f.payload = []) :
    exec (.resetPart s.centreLink f) s
      = .next (((s.ended s.centreLink).resetPart s.centreLink f).hear s.centreLink 0 none) := by
  show execResetPart s.centreLink f s = _
  unfold execResetPart
  rw [centreRequest_of asks, if_neg (not_not_intro empty)]

/-- R154: the centre of a request is LIVE before its answer. -/
theorem heardCentre_of {f : Frame} {s : State} {l : Liveness} (asks : CentreAsks s f l) :
    (s.ended s.centreLink).heardCentre s.centreLink f = (s.ended s.centreLink).heardFrom s.centreLink 0 .centre := by
  obtain ⟨⟨-, -, -, hop, -⟩, -⟩ := asks
  unfold State.heardCentre
  rw [hop]
  rfl

/-- R152: hearing a centre that has just been heard changes nothing. -/
theorem State.hear_heardFrom (s : State) (k : LinkNo) (p : PosNo) (save : Option RecordId) :
    (s.heardFrom k p .centre).hear k p save = s.heardFrom k p .centre := by
  have live : (s.heardFrom k p .centre).entry k p = .bound .centre (.live (after s.now s.profile.silenceLimit)) :=
    State.entry_setEntry_self ..
  rw [State.hear_centre live]
  exact State.setEntry_setEntry ..

/-- R180: the answer to RESET PART waits to be sent. -/
theorem resetPart_of_room {f : Frame} {s : State} {l : Liveness} (asks : CentreAsks s f l)
    (room : s.hasRoom s.centreLink = true) :
    ((s.ended s.centreLink).resetPart s.centreLink f).hear s.centreLink 0 none
      = ((s.ended s.centreLink).enqueue s.centreLink
          { txFrame f.hop .answer f.tag Status.done.byte with resetAnswer := true }).heardFrom s.centreLink 0 .centre := by
  have has : ((s.ended s.centreLink).heardFrom s.centreLink 0 .centre).hasRoom s.centreLink = true := by
    show (s.ended s.centreLink).hasRoom s.centreLink = true
    rw [State.ended_hasRoom, room]
  have commutes : ∀ x : TxFrame, ((s.ended s.centreLink).heardFrom s.centreLink 0 .centre).enqueue s.centreLink x
      = ((s.ended s.centreLink).enqueue s.centreLink x).heardFrom s.centreLink 0 .centre := fun _ => rfl
  unfold State.resetPart
  rw [heardCentre_of asks]
  dsimp only
  rw [if_pos has, commutes]
  exact State.hear_heardFrom ..

/-- R143, R180: where there is no room for its answer, RESET PART begins the reset at once. -/
theorem resetPart_of_full {f : Frame} {s : State} {l : Liveness} (asks : CentreAsks s f l)
    (full : s.hasRoom s.centreLink = false) :
    HeldInReset s (((s.ended s.centreLink).resetPart s.centreLink f).hear s.centreLink 0 none) .command := by
  have none' : ((s.ended s.centreLink).heardFrom s.centreLink 0 .centre).hasRoom s.centreLink = false := by
    show (s.ended s.centreLink).hasRoom s.centreLink = false
    rw [State.ended_hasRoom, full]
  unfold State.resetPart
  rw [heardCentre_of asks]
  dsimp only
  rw [if_neg (by rw [none']; exact Bool.false_ne_true)]
  have bound : ∀ x : TxFrame, ((((s.ended s.centreLink).heardFrom s.centreLink 0 .centre).offer s.centreLink x).beginReset
      .command).entry s.centreLink 0 = .bound .centre (.live (after s.now s.profile.silenceLimit)) := fun x => by
    show ((((s.ended s.centreLink).heardFrom s.centreLink 0 .centre).offer s.centreLink x).directory.get _).get 0 = _
    rw [State.offer_directory]
    exact State.entry_setEntry_self ..
  rw [State.hear_centre (bound _)]
  refine HeldInReset.heard (beginReset_held .command ?_) ..
  rw [State.offer_part]
  rfl

/-- R138, R180: when the answer to RESET PART has been sent, the reset begins. -/
theorem frameSent_of_resetAnswer {k : LinkNo} {s : State} {x : TxFrame} {xs : List TxFrame} (out : s.inReset = false)
    (sending : (s.link k).lineState = .sending) (head : (s.link k).queue = x :: xs) (marked : x.resetAnswer = true) :
    exec (.frameSent k) s = .next ((s.updLink k LinkRec.sent).beginReset .command) := by
  have last : (s.link k).sendsResetAnswer = true := by
    unfold LinkRec.sendsResetAnswer
    rw [head]
    exact marked
  show execFrameSent k s = _
  unfold execFrameSent
  rw [awake_of out, if_pos sending, if_pos last]

/-- Settles O52: each beginning of a reset is `beginReset`, of which `beginReset_held` says what it leaves. -/
theorem resetsBegin : Obligations.ResetsBegin := by
  have held : ∀ {s t : State} {kind : ResetKind}, HeldInReset s t kind → _ ∧ _ ∧ _ :=
    fun h => ⟨h.part, h.links, h.lines⟩
  refine ⟨fun f s l asks empty room => ?_, fun k s x xs out sending head marked => ?_, fun f s l asks payload => ?_,
    fun f s l arrives bound full empty => ?_, fun s => ?_, fun s => ?_⟩
  · rw [resetPart_of asks empty, resetPart_of_room asks room]
    rfl
  · exact ⟨_, frameSent_of_resetAnswer out sending head marked, held (beginReset_held .command rfl)⟩
  · show execResetPart s.centreLink f s = _
    unfold execResetPart
    rw [centreRequest_of asks, if_pos payload]
    exact congrArg _ (State.reply_heard asks _)
  · exact ⟨_, resetPart_of ⟨arrives, bound⟩ empty, held (resetPart_of_full ⟨arrives, bound⟩ full)⟩
  · exact ⟨_, rfl, held (beginReset_held .supply rfl)⟩
  · exact ⟨_, rfl, held (beginReset_held .line rfl)⟩

end Sys2Proof.Machine
end

section
/-! SUPPORT. The commit of the profile (R173, R174) and the end of the clearance (R175). -/

namespace Sys2Proof.Machine

/-! ## The first check that fails -/

/-- Of checks, each of which says whether it fails and with what result bytes, the first that fails. -/
def firstFailure (cs : List (Bool × List Byte)) : Option (List Byte) := (cs.find? Prod.fst).map Prod.snd

theorem firstFailure_append (cs ds : List (Bool × List Byte)) :
    firstFailure (cs ++ ds) = (firstFailure cs).or (firstFailure ds) := by
  unfold firstFailure
  rw [List.find?_append, Option.map_or]

/-- The first failure of what each of a list is checked for. -/
theorem findSome_eq_firstFailure {α : Type} (xs : List α) (f : α → Option (List Byte))
    (checks : α → List (Bool × List Byte)) (h : ∀ x, f x = firstFailure (checks x)) :
    xs.findSome? f = firstFailure (xs.flatMap checks) := by
  induction xs with
  | nil => rfl
  | cons x xs ih =>
    rw [List.flatMap_cons, firstFailure_append, ← ih, ← h, List.findSome?_cons]
    cases f x <;> rfl

theorem findSome_map_eq_firstFailure {α : Type} (xs : List α) (f : α → Option (List Byte))
    (check : α → Bool × List Byte) (h : ∀ x, f x = firstFailure [check x]) :
    xs.findSome? f = firstFailure (xs.map check) := by
  rw [findSome_eq_firstFailure xs f (fun x => [check x]) h, List.map_eq_flatMap]

/-! ## The checks of R173 -/

/-- A point with its kind and its number, as BAD_PROFILE sends them. -/
def numbered (pt : Point) : Point × Byte × Byte :=
  (pt, BitVec.ofNat 8 pt.kind.code, BitVec.ofNat 8 pt.kind.number)

/-- The lines that stand for a point. -/
def State.assigned (s : State) (pt : Point) : List LineNo := allLines.filter fun d => decide ((s.line d).point = some pt)

/-- R173, check 1, for a span. -/
def State.spanChecks (s : State) (i : SpanNo) : List (Bool × List Byte) :=
  [(decide (s.profile.spanLength.get i = 0), [2, BitVec.ofNat 8 (i.val + 1), 0, 0, 0]),
   (decide (s.profile.spanLimit.get i = 0), [12, BitVec.ofNat 8 (i.val + 1), 0, 0, 0])]

/-- R173, check 2, for an approach. -/
def State.distanceChecks (s : State) (a : Approach) : List (Bool × List Byte) :=
  let code : Byte := match a with | .A => 0 | .B => 1
  [(decide (s.profile.distWeighGantry.get a = 0), [5, code, 0, 0, 0]),
   (decide (s.profile.distGantryEntry.get a = 0), [6, code, 0, 0, 0]),
   (decide (0 < s.profile.bayCapacity.get a ∧ s.profile.distBayEntry.get a = 0), [7, code, 0, 0, 0])]

/-- R173, check 3, for a point. -/
def State.pointCheck (s : State) (x : Point × Byte × Byte) : Bool × List Byte :=
  (decide ((s.assigned x.1).length ≠ 1),
    [8, (match (s.assigned x.1)[1]? with | none => 255 | some d => BitVec.ofNat 8 d.val),
      (match x.1.approach with | .A => 0 | .B => 1), x.2.1, x.2.2])

/-- R173, check 4, for a line. -/
def State.lineCheck (s : State) (d : LineNo) : Bool × List Byte :=
  (match (s.line d).point with
    | none => false
    | some pt => decide (pt ∉ s.requiredPoints pt.approach), [8, BitVec.ofNat 8 d.val, 0, 0, 0])

theorem spanFault_eq (s : State) (i : SpanNo) : s.spanFault i = firstFailure (s.spanChecks i) := by
  unfold State.spanFault State.spanChecks firstFailure
  by_cases length : s.profile.spanLength.get i = 0
  · simp [length, badProfile, one, assignmentFields]
  · by_cases limit : s.profile.spanLimit.get i = 0
    · simp [length, limit, badProfile, one, assignmentFields]
    · simp [length, limit]

theorem distanceFault_eq (s : State) (a : Approach) : s.distanceFault a = firstFailure (s.distanceChecks a) := by
  have bytes : ∀ item : Nat, badProfile item (approachCode a) none
      = [BitVec.ofNat 8 item, (match a with | .A => 0 | .B => 1), 0, 0, 0] := fun item => by cases a <;> rfl
  unfold State.distanceFault State.distanceChecks firstFailure State.bayInUse
  by_cases gantry : s.profile.distWeighGantry.get a = 0
  · simp [gantry, bytes]
  · by_cases entry : s.profile.distGantryEntry.get a = 0
    · simp [gantry, entry, bytes]
    · by_cases bay : 0 < s.profile.bayCapacity.get a ∧ s.profile.distBayEntry.get a = 0
      · simp [gantry, entry, bay, bytes]
      · simp [gantry, entry, bay]

theorem pointFault_eq (s : State) (pt : Point) : s.pointFault pt = firstFailure [s.pointCheck (numbered pt)] := by
  have code : BitVec.ofNat 8 (approachCode pt.approach) = (match pt.approach with | .A => 0 | .B => 1) := by
    cases pt.approach <;> rfl
  unfold State.pointFault State.pointCheck firstFailure
  show (match s.assigned pt with
    | [] => _
    | [_] => _
    | _ :: d :: _ => _) = _
  match s.assigned pt with
  | [] => simp [numbered, badProfile, one, assignmentFields, code]
  | [_] => simp [numbered]
  | _ :: d :: _ => simp [numbered, badProfile, one, assignmentFields, code]

theorem lineFault_eq (s : State) (d : LineNo) : s.lineFault d = firstFailure [s.lineCheck d] := by
  unfold State.lineFault State.lineCheck firstFailure
  cases (s.line d).point with
  | none => rfl
  | some pt =>
    by_cases required : pt ∈ s.requiredPoints pt.approach
    · simp [required]
    · simp [required, badProfile, one, assignmentFields]

/-- R173: the first failure of the validation is that of its checks, in their order. -/
theorem profileFault_eq (s : State) : s.profileFault = firstFailure (s.spansInUse.flatMap s.spanChecks
    ++ [Approach.A, .B].flatMap s.distanceChecks
    ++ ((s.requiredPoints .A ++ s.requiredPoints .B).map numbered).map s.pointCheck ++ allLines.map s.lineCheck) := by
  rw [firstFailure_append, firstFailure_append, firstFailure_append, Option.or_assoc, Option.or_assoc, List.map_map]
  unfold State.profileFault
  rw [findSome_eq_firstFailure _ _ _ (spanFault_eq s), findSome_eq_firstFailure _ _ _ (distanceFault_eq s),
    findSome_map_eq_firstFailure _ _ (s.pointCheck ∘ numbered) (pointFault_eq s),
    findSome_map_eq_firstFailure _ _ _ (lineFault_eq s)]

/-! ## What a commit and the end of the clearance do to the spans -/

theorem spanRec_setPresumed (p : SpanRec → Nat) (i j : SpanNo) (s : State) :
    (setPresumed p i s).st.spanRec j = if j = i
      then { (s.spanRec j).presume (p (s.spanRec j)) with overloaded := ((s.spanRec i).presume (p (s.spanRec i))).isOver }
      else s.spanRec j := by
  unfold setPresumed
  rw [spanRec_evalOverload, State.spanRec_updSpan, State.spanRec_updSpan, if_pos rfl]
  split <;> rfl

/-- R26: the presumed loads of several spans, and the claimed masses with them. -/
theorem spanRec_presumed (p : SpanRec → Nat) {is : List SpanNo} (s : State) (distinct : is.Nodup) (j : SpanNo) :
    ∃ loaded, (Eff.each is (setPresumed p) s).st.spanRec j = if j ∈ is
      then { (s.spanRec j).presume (p (s.spanRec j)) with overloaded := loaded } else s.spanRec j := by
  induction is generalizing s with
  | nil => exact ⟨false, rfl⟩
  | cons i is ih =>
    obtain ⟨other, rest⟩ := List.nodup_cons.1 distinct
    obtain ⟨loaded, e⟩ := ih (setPresumed p i s).st rest
    rw [Eff.each_cons, Eff.bind_st, e]
    by_cases h : j = i
    · refine ⟨((s.spanRec i).presume (p (s.spanRec i))).isOver, ?_⟩
      rw [h, if_neg other, spanRec_setPresumed, if_pos rfl, if_pos List.mem_cons_self]
    · refine ⟨loaded, ?_⟩
      have kept : (setPresumed p i s).st.spanRec j = s.spanRec j := by rw [spanRec_setPresumed, if_neg h]
      simp only [kept, List.mem_cons, h, false_or]

theorem accountOnly_presumed (p : SpanRec → Nat) (is : List SpanNo) (s : State) :
    AccountOnly s (Eff.each is (setPresumed p) s).st :=
  accountOnly_each _ _ _ fun i _ => (accountOnly_updSpan ..).trans (accountOnly_evalOverload none 0 i _)

theorem spansInUse_nodup (s : State) : s.spansInUse.Nodup := allSpans_nodup.filter _

theorem mem_spansInUse {s : State} {i : SpanNo} : i ∈ s.spansInUse ↔ i.val < s.profile.spanCount := by
  unfold State.spansInUse
  rw [List.mem_filter, decide_eq_true_iff]
  exact and_iff_right (mem_allSpans i)

/-- R26: a span in use is presumed loaded as its record says. -/
theorem spanRec_presumed_inUse (p : SpanRec → Nat) (s u : State) (account : u.account = s.account) {i : SpanNo}
    (used : i.val < s.profile.spanCount) :
    ((Eff.each s.spansInUse (setPresumed p) u).st.spanRec i).presumed = p (s.spanRec i)
      ∧ ((Eff.each s.spansInUse (setPresumed p) u).st.spanRec i).mass
        = (s.spanRec i).mass - (s.spanRec i).presumed + p (s.spanRec i) := by
  have same : u.spanRec i = s.spanRec i := by unfold State.spanRec; rw [account]
  obtain ⟨loaded, e⟩ := spanRec_presumed p u (spansInUse_nodup s) i
  rw [e, if_pos (mem_spansInUse.2 used), same]
  exact ⟨rfl, rfl⟩

/-- R174: what a commit leaves before its reports are taken. -/
theorem commitment_part (s : State) : (commitment s).st.part = { s.part with
    state := .clearing, clearanceDue := some (after s.now (s.profile.clearance * 1000)) } := by
  have only := accountOnly_presumed SpanRec.massLimit s.spansInUse { s with part := { s.part with state := .clearing } }
  unfold commitment
  rw [Eff.emit_st, Eff.map_st]
  unfold State.now
  rw [only.part, only.outside.profile]

/-- R126: a refused record or a commit leaves WEIGH_LOSS held. -/
theorem weighLossSet_holds (a : Approach) (s : State) : (weighLossSet a s).st.holds a .weighLoss = true := by
  unfold weighLossSet
  dsimp only
  split
  · next held =>
    unfold State.holds
    rw [Eff.of_st, State.mode_updMode_self]
    exact held
  · rw [addCause_holds]
    simp

/-- R126, R174: WEIGH_LOSS is held on both approaches once a commit has been settled. -/
theorem commit_holds_weighLoss (s : State) (a : Approach) : (settle (commitment s)).holds a .weighLoss = true := by
  have presumed : Orderly { s with part := { s.part with state := .clearing } }
      (Eff.each s.spansInUse (setPresumed SpanRec.massLimit) { s with part := { s.part with state := .clearing } }) :=
    orderly_each (orderly_setPresumed _)
  have through : ∀ gs gs', (commitment s).out = gs ++ .weighLoss a :: gs' → (∀ g ∈ gs, g.routine = true) →
      (∀ g ∈ gs', g.routine = true) → (settle (commitment s)).holds a .weighLoss = true := by
    intro gs gs' out before behind
    exact settle_through (g := .weighLoss a) (fun _ => True) (fun u => u.holds a .weighLoss = true) (fun g => g.routine = true)
      (fun _ _ _ _ => trivial) (fun g u usual held => (act_orderly u usual).regular.weighLoss a held)
      (fun g u usual => (act_orderly u usual).routine)
      (fun u _ => ⟨weighLossSet_holds a u, (orderly_weighLossSet a u).routine⟩) rfl out before behind trivial
  cases a with
  | A => exact through _ [.weighLoss .B] rfl presumed.routine (by simp [Signal.routine])
  | B =>
    have out : (commitment s).out = _ ++ .weighLoss .A :: [.weighLoss .B] := rfl
    rw [List.append_cons] at out
    refine through _ [] out (fun g hg => ?_) fun _ h => nomatch h
    rcases List.mem_append.1 hg with h | h
    · exact presumed.routine g h
    · rw [List.mem_singleton.1 h]
      rfl

/-! ## The obligation -/

/-- R173: the required points with their numbers, in the order of the check. -/
theorem requiredPoints_numbered (s : State) (a : Approach) :
    (s.requiredPoints a).map numbered
      = (([0, 1, 2] : List LaneNo).filter fun j => decide (j.val < s.profile.lanes.get a)).map
          (fun j => (⟨a, .gantry j⟩, 1, BitVec.ofNat 8 (j.val + 1)))
        ++ (if 0 < s.profile.bayCapacity.get a then [(⟨a, .bayExit⟩, 2, 0)] else [])
        ++ [(⟨a, .entry⟩, 3, 0)]
        ++ (([0, 1, 2] : List (Fin 3)).filter fun k => decide (k.val + 1 < s.profile.spanCount)).map
          (fun k => (⟨a, .boundary k⟩, 4, BitVec.ofNat 8 (k.val + 1)))
        ++ [(⟨a, .exit⟩, 5, 0)] := by
  unfold State.requiredPoints State.bayInUse
  simp only [List.map_append, List.map_map, decide_eq_true_iff]
  congr 4
  split <;> rfl

theorem map_fst_numbered (pts : List Point) : (pts.map numbered).map Prod.fst = pts := by
  rw [List.map_map]
  exact List.map_id pts

/-- Settles O50: the checks are those of the validation, in their order; a commit and the end of the clearance are one
transition each, whose reports `settle` takes. -/
theorem commitStartsClearingAndTheDueEndsIt : Obligations.CommitStartsClearingAndTheDueEndsIt := by
  unfold Obligations.CommitStartsClearingAndTheDueEndsIt
  refine ⟨fun s => ?_, fun f s l asks => ?_, fun s due awakened clearing theDue come => ?_⟩
  · intro code spans lanes boundaries points assigned spanChecks distanceChecks pointCheck lineCheck checks
    have required : ∀ a, points a = (s.requiredPoints a).map numbered := fun a => (requiredPoints_numbered s a).symm
    have lines : lineCheck = s.lineCheck := by
      funext d
      unfold lineCheck State.lineCheck
      cases (s.line d).point with
      | none => rfl
      | some pt => simp only [required, map_fst_numbered]
    have both : [Approach.A, .B].flatMap points = (s.requiredPoints .A ++ s.requiredPoints .B).map numbered := by
      rw [List.map_append, ← required, ← required]
      simp
    show _ = firstFailure (spans.flatMap s.spanChecks ++ [Approach.A, .B].flatMap s.distanceChecks
      ++ ([Approach.A, .B].flatMap points).map s.pointCheck ++ allLines.map lineCheck)
    rw [both, lines]
    exact profileFault_eq s
  · have run : exec (.commitProfile s.centreLink f) s = execCommitProfile s.centreLink f s := rfl
    rw [run]
    unfold execCommitProfile
    rw [centreRequest_of asks]
    refine ⟨fun payload => ?_, fun payload wrong => ?_, fun bytes payload state fault => ?_, fun payload state fault => ?_⟩
    · rw [if_pos payload]
      exact congrArg _ (State.reply_heard asks _)
    · rw [if_neg (not_not_intro payload), if_pos (by simpa using wrong)]
      exact congrArg _ (State.reply_heard asks _)
    · have found : (s.ended s.centreLink).profileFault = some bytes := fault
      rw [if_neg (not_not_intro payload), if_neg (by simpa using state), found]
      exact congrArg _ (State.reply_heard asks _)
    · have found : (s.ended s.centreLink).profileFault = none := fault
      rw [if_neg (not_not_intro payload), if_neg (by simpa using state), found]
      refine ⟨commitment (s.ended s.centreLink), ?_, ?_, ?_, ?_, ?_, ?_⟩
      · rw [← commit_eq]
        rfl
      · exact commitment_part _
      · exact fun i used => spanRec_presumed_inUse SpanRec.massLimit (s.ended s.centreLink)
          { s.ended s.centreLink with part := { s.part with state := .clearing } } rfl used
      · exact ⟨_, rfl⟩
      · exact (accountOnly_presumed SpanRec.massLimit _ _).table
      · exact fun a => ((regular_reply ..).trans (regular_hear ..)).weighLoss a (commit_holds_weighLoss _ a)
  · have run : exec .clearanceDue s = execClearanceDue s := rfl
    rw [run]
    unfold execClearanceDue
    rw [awake_of awakened, if_pos ⟨clearing, by rw [theDue]; exact come⟩, clear_eq]
    refine ⟨clearance s, rfl, ?_, ?_, ⟨_, rfl⟩, ?_, ?_⟩
    · exact (accountOnly_presumed (fun _ => 0) _ _).part
    · exact fun i used => spanRec_presumed_inUse (fun _ => 0) s
        { s with part := { s.part with state := .running, clearanceDue := none } } rfl used
    · exact (accountOnly_presumed (fun _ => 0) _ _).table
    · exact (switched_clearance s).partState

end Sys2Proof.Machine
end

section
/-! SUPPORT. A valid frame is a hearing (R141, R152). -/

namespace Sys2Proof.Machine

/-! ## What a hearing leaves -/

theorem outside_settled {s : State} {e : Eff} (h : Outside s e.st) : Outside s (settle e) :=
  h.trans (settle_outside e)

/-- The timebase and a position's role as the dealing with a frame leaves them. -/
structure Dealt (k : LinkNo) (p : PosNo) (role : Role) (s t : State) : Prop where
  time : t.now = s.now
  bound : ∃ l, t.entry k p = .bound role l

theorem Outside.dealt {k : LinkNo} {p : PosNo} {role : Role} {s t u : State} (h : Outside t u)
    (d : Dealt k p role s t) : Dealt k p role s u :=
  ⟨h.now.trans d.time, by rw [h.entry]; exact d.bound⟩

/-- R152, R154: the entry that is heard is LIVE with its silence due renewed, and keeps its role. -/
theorem entry_hear {u : State} {k : LinkNo} {p : PosNo} {role : Role} (bound : ∃ l, u.entry k p = .bound role l)
    (save : Option RecordId) :
    (u.hear k p save).entry k p = .bound role (.live (after u.now (u.hear k p save).profile.silenceLimit)) := by
  obtain ⟨was, bound⟩ := bound
  have written : (u.setEntry k p (u.renewed role)).entry k p = .bound role (.live (after u.now u.profile.silenceLimit)) :=
    State.entry_setEntry_self ..
  have follows : ∀ t, Outside (u.setEntry k p (u.renewed role)) t →
      t.entry k p = .bound role (.live (after u.now t.profile.silenceLimit)) := by
    intro t kept
    rw [kept.entry, written, kept.profile, State.setEntry_profile]
  have renewed : Outside (u.setEntry k p (u.renewed role))
      (settle { st := u.setEntry k p (u.renewed role), out := reportLive role was }) := outside_settled (.refl _)
  apply follows
  unfold State.hear
  rw [bound]
  dsimp only
  split
  · exact outside_settled (renewed.trans (outside_resendFailed ..))
  · exact renewed
  · exact renewed

/-- R152: the hearing of a weigh station. -/
theorem hear_weigh {u : State} {k : LinkNo} {p : PosNo} {a : Approach} {lanes : BitVec 3} {l : Liveness}
    (bound : u.entry k p = .bound (.weigh a lanes) l) (save : Option RecordId) :
    u.hear k p save = settle
      { st := u.heardFrom k p (.weigh a lanes), out := if l = .silent then [.judgeWeigh a] else [] } := by
  unfold State.hear
  rw [bound]
  cases l <;> rfl

theorem hear_unbound {u : State} {k : LinkNo} {p : PosNo} (unbound : u.entry k p = .unbound)
    (save : Option RecordId) : u.hear k p save = u := by
  unfold State.hear
  rw [unbound]

/-- R141, R152: a frame that arrives is a hearing where its dealing keeps the time and the role. -/
theorem heard_of_dealt {s : State} {k : LinkNo} {f : Frame} {p : PosNo} {role : Role} (arrives : Arrives s k f p)
    {save : State → PosNo → Option RecordId} {deal : PosNo → State → State}
    (dealt : Dealt k p role s (deal p (s.ended k))) :
    ∃ t, awake s (fun s => s.receive k f (save s) deal) = .next t
      ∧ t.entry k p = .bound role (.live (after s.now t.profile.silenceLimit)) := by
  refine ⟨_, awake_of arrives.1 _, ?_⟩
  rw [State.receive_of arrives, entry_hear dealt.bound, dealt.time]

/-! ## What the dealing with a frame leaves -/

theorem outside_poolOverrun (s : State) (a : Approach) : Outside s (s.poolOverrun a) :=
  (outside_raise ..).trans (outside_updTable ..)

theorem outside_refuseWeigh (s : State) (k : LinkNo) (f : Frame) (a : Approach) (st : Status) :
    Outside s (s.refuseWeigh k f a st) :=
  outside_settled (outside_answer ..)

theorem outside_evaluate (s : State) (t : Ticket) : Outside s (s.evaluate t) := by
  unfold State.evaluate
  dsimp only
  split
  · exact (outside_updTicket ..).trans (outside_placeUnforced ..)
  · exact (outside_updTicket ..).trans (outside_setHold ..)
  · exact outside_updTicket ..

theorem outside_enterTicket (s : State) (t : Ticket) (l : LaneNo) : Outside s (s.enterTicket t l) :=
  (outside_addTicket s t).trans ((outside_evaluate ..).trans ((outside_updPlaces ..).trans (outside_setDue ..)))

theorem outside_acceptWeigh (s : State) (k : LinkNo) (f : Frame) (a : Approach) (h : Handle) (w : Weighing) :
    Outside s (s.acceptWeigh k f a h w) :=
  outside_settled ((outside_enterTicket ..).trans (outside_answer ..))

theorem outside_takeWeigh (s : State) (k : LinkNo) (f : Frame) (a : Approach) (lanes : BitVec 3) :
    Outside s (s.takeWeigh k f a lanes) := by
  unfold State.takeWeigh
  split
  · exact outside_refuseWeigh ..
  · split
    · exact (outside_poolOverrun ..).trans (outside_refuseWeigh ..)
    · exact outside_acceptWeigh ..

theorem outside_takeAnswer (s : State) (k : LinkNo) (f : Frame) (a : Approach) : Outside s (s.takeAnswer k f a) := by
  unfold State.takeAnswer
  split
  · split
    · exact outside_settled (outside_shownRecord ..)
    · exact outside_settled (outside_lostRecord ..)
  · exact (outside_updLink ..).trans (outside_raise ..)

/-- R157: an unbinding leaves the other positions alone. -/
theorem dealt_unbind {k j : LinkNo} {p q : PosNo} {role : Role} {s t : State} (other : q ≠ p)
    (d : Dealt k p role s t) : Dealt k p role s (t.unbind j q) := by
  have gone : Dealt k p role s (t.setEntry j q .unbound) := by
    refine ⟨d.time, ?_⟩
    rw [State.entry_setEntry, if_neg fun same => other same.2.symm]
    exact d.bound
  have follows : ∀ e, Outside (t.setEntry j q .unbound) e.st → Dealt k p role s (settle e) := fun e kept =>
    (outside_settled kept).dealt gone
  unfold State.unbind
  dsimp only
  split
  · exact d
  · exact follows _ (.refl _)
  · exact follows _ (outside_failOutstanding ..)
  · exact gone

/-- R142, R157: a new chain leaves the positions within it alone. -/
theorem dealt_setChain {k : LinkNo} {p : PosNo} {role : Role} {s t : State} {n : Nat} (within : p.val + 1 ≤ n)
    (d : Dealt k p role s t) : Dealt k p role s (t.setChain k n) := by
  have set : Dealt k p role s (t.updLink k fun r => { r with chain := n }) := (outside_updLink ..).dealt d
  unfold State.setChain
  dsimp only
  split
  · refine List.foldlRecOn _ _ set fun u kept q cut => dealt_unbind ?_ kept
    have above : n < q.val + 1 := of_decide_eq_true (List.mem_filter.1 cut).2
    rintro rfl
    omega
  · exact set

/-- R151: a request is dealt with for the centre alone, and is refused to any other role; either way it is a
hearing. -/
theorem centreRequest_heard {s : State} {k : LinkNo} {f : Frame} {p : PosNo} {role : Role} {take : State → State}
    (arrives : Arrives s k f p) (kept : ∀ u, Taken u (take u)) (ended : Dealt k p role s (s.ended k))
    (own : role = .centre → k = s.centreLink ∧ p = 0) :
    ∃ t, centreRequest k f take s = .next t
      ∧ t.entry k p = .bound role (.live (after s.now t.profile.silenceLimit)) := by
  refine heard_of_dealt (save := fun _ _ => none) arrives ?_
  obtain ⟨l, bound⟩ := ended.bound
  rw [bound]
  cases role with
  | weigh | gantry => exact (outside_answer ..).dealt ended
  | centre =>
    obtain ⟨rfl, rfl⟩ := own rfl
    have centre := (kept (s.ended s.centreLink)).centre
    refine ⟨centre.time, ?_⟩
    have still := centre.bound ⟨l, bound⟩
    rw [centre.strap] at still
    exact still

/-- A frame is a request of the centre, or one of the five kinds that stations send. -/
theorem frameOfCommand_cases {i : Instr} {k : LinkNo} {code : Byte} {f : Frame}
    (h : frameOfCommand i = some (k, code, f)) :
    Instr.request i = some (k, f) ∨ i = .keepalive k f ∨ i = .chainSet k f ∨ i = .answer k f ∨ i = .weighRecord k f
      ∨ i = .unknownKind k code f := by
  cases i <;> simp_all [frameOfCommand, Instr.request]

/-- R141, R152: every valid frame of a bound position is a hearing. -/
theorem frame_heard {i : Instr} {k : LinkNo} {code : Byte} {f : Frame} {p : PosNo} {s : State} {role : Role}
    {l : Liveness} (frame : frameOfCommand i = some (k, code, f)) (arrives : Arrives s k f p)
    (bound : s.entry k p = .bound role l) (own : role = .centre → k = s.centreLink ∧ p = 0) :
    ∃ t, exec i s = .next t ∧ t.entry k p = .bound role (.live (after s.now t.profile.silenceLimit)) := by
  have ended : Dealt k p role s (s.ended k) := ⟨rfl, l, bound⟩
  rcases frameOfCommand_cases frame with request | rfl | rfl | rfl | rfl | rfl
  · obtain ⟨take, asks, kept⟩ := request_taken request
    rw [asks]
    exact centreRequest_heard arrives kept ended own
  · refine heard_of_dealt (save := fun _ _ => none) arrives ?_
    split
    · exact (outside_answer ..).dealt ended
    · split
      · exact (outside_answer ..).dealt ended
      · exact (outside_answer ..).dealt ended
  · refine heard_of_dealt (save := fun _ _ => none) arrives ?_
    dsimp only
    split
    · next taken =>
      obtain ⟨-, -, -, within⟩ := taken
      exact dealt_setChain within ended
    · exact ended
  · refine heard_of_dealt (save := fun s p => s.failedByAnswer k f p) arrives ?_
    split
    · exact (outside_takeAnswer ..).dealt ended
    · exact ended
  · refine heard_of_dealt (save := fun _ _ => none) arrives ?_
    split
    · exact (outside_takeWeigh ..).dealt ended
    all_goals exact (outside_answer ..).dealt ended
  · exact heard_of_dealt (save := fun _ _ => none) arrives ((outside_answer ..).dealt ended)

/-- Settles O9, by what the dealing with each kind of frame leaves of the position, and then by the hearing. -/
theorem everyValidFrameIsAHearing : Obligations.EveryValidFrameIsAHearing := by
  intro i k code f p s role l frame arrives bound own
  exact ⟨frame_heard frame arrives bound own, fun save u => ⟨fun unbound => hear_unbound unbound save,
    fun l centre => State.hear_centre centre save, fun a lanes l weigh => hear_weigh weigh save⟩⟩

end Sys2Proof.Machine
end
